-- ==== Sys2Proof/Word.lean ====
section
/-! DEFINITION. The words of the block: wire bytes, frame fields, sizes, pixel words and 24-bit pixels
(00_scope.md R12, 10_state.md R21, 20_memory.md R52). -/

namespace Sys2Proof

/-- A byte is 8 bits (00_scope.md R12). -/
abbrev Byte := BitVec 8

/-- One of the four coordinate fields of a frame: 10 bits, unsigned (30_encoding.md R84). -/
abbrev Coord := BitVec 10

/-- The width of `W`, `H`, `ROW` and `COL`: 11 bits, unsigned (10_state.md R21). -/
abbrev Extent := BitVec 11

/-- A packed PIXEL16 word (30_encoding.md R89). -/
abbrev PixelWord := BitVec 16

/-- One element of the pixel-buffer space: three 8-bit channels (20_memory.md R52).
Every value is a legal pixel. -/
structure Pixel where
  r : Byte
  g : Byte
  b : Byte
deriving DecidableEq, Repr

end Sys2Proof
end

