-- ==== Sys2Proof/Config.lean ====
section
/-! DEFINITION. The implementation parameters (00_scope.md R8, R10) and the one free value of the spec
(20_memory.md R61). What is derived from the parameters stands in Machine/Parameters.lean. -/

namespace Sys2Proof

/-- `PIXEL_BYTE_ORDER`: which byte of an RGB565 word goes on the wire first (00_scope.md R10, 20_memory.md R57). -/
inductive ByteOrder where
  /-- Low byte first. -/
  | le
  /-- High byte first. -/
  | be
deriving DecidableEq, Repr

/-- The configuration tuple of 00_scope.md R11: constants of one instance of the block, set before reset is
released and never changed while the block runs (R8). -/
structure Config where
  /-- `DISPLAY_WIDTH`, pixel columns of the display. -/
  displayWidth : Nat
  /-- `DISPLAY_HEIGHT`, pixel rows of the display. -/
  displayHeight : Nat
  /-- `CHUNK_MULT`, the chunk-size multiplier. -/
  chunkMult : Nat
  /-- `SETTLE_DELAY_MS`; no rule depends on it (42_pixel_streamer.md R141).
  DESIGN CHOICE (entry 18): a rational number of milliseconds stands for the spec's non-negative real. -/
  settleDelayMs : Rat
  /-- `PIXEL_BYTE_ORDER`. -/
  byteOrder : ByteOrder
  /-- `OPW`, the width in bits of each signed operand of a request. -/
  opw : Nat
deriving DecidableEq, Repr

/-- FREE VALUE (entry 5): how many of its bytes the `n`-th failing write delivered before it failed
(20_memory.md R61: "which prefix is not determined by anything in the block, and a model must admit every
prefix"). Nothing constrains it; a value past the end of the write stands for all of its bytes. -/
opaque Config.failedPrefix : Nat → Nat

end Sys2Proof
end

