-- ==== Sys2Proof/Machine/Memory.lean ====
section
/-! DEFINITION. The pixel-buffer space (20_memory.md R50, R51, R52), the only memory the block reads: a list of
(address, byte) cells with strictly rising addresses. Element `i` is the three bytes r, g, b at `3i`, `3i + 1`,
`3i + 2` (entry 8). The block has no write to it (00_scope.md R14, 10_state.md R30). -/

namespace Sys2Proof.Machine

/-- A pixel buffer as the host lends it. -/
abbrev Memory := List Host.Cell

/-- What the space holds at a byte address. An unlisted address reads as NO VALUE: the host lent no such byte
(entry 8, safe). -/
def readByte : Memory → Nat → Option Byte
  | [], _ => none
  | (a, v) :: rest, n => if a = n then some v else readByte rest n

/-- All addresses of the cells are at or above a bound and strictly rise. -/
def risingFrom : Nat → Memory → Bool
  | _, [] => true
  | lo, (a, _) :: rest => decide (lo ≤ a) && risingFrom (a + 1) rest

/-- The canonical form: addresses strictly rising. Two buffers in this form that read alike are equal. -/
def Memory.wf (m : Memory) : Bool := risingFrom 0 m

/-- `MemRead(i, 3)`: the element at index `i` (20_memory.md R51, 00_scope.md R14); none where the lent buffer does not
hold all three of its bytes. -/
def memRead (m : Memory) (i : Nat) : Option Pixel :=
  match readByte m (3 * i), readByte m (3 * i + 1), readByte m (3 * i + 2) with
  | some r, some g, some b => some { r := r, g := g, b := b }
  | _, _, _ => none

/-- The cells of a row of pixels whose first element has index `i`. -/
def cellsFrom : Nat → List Pixel → Memory
  | _, [] => []
  | i, p :: rest => (3 * i, p.r) :: (3 * i + 1, p.g) :: (3 * i + 2, p.b) :: cellsFrom (i + 1) rest

/-- A pixel buffer from its elements in row-major order (20_memory.md R51). -/
def bufferOf (ps : List Pixel) : Memory := cellsFrom 0 ps

end Sys2Proof.Machine
end

