-- ==== Sys2Proof/Syntax.lean ====
section
/-! DEFINITION. The command set, the instructions (one constructor per row of spec/opcode_table.json) and the
request record of the request port. -/

namespace Sys2Proof

/-- `CommandCode`, the closed enumeration of the six commands (00_scope.md R2, 30_encoding.md R85). -/
inductive Command where
  | reset
  | clear
  | screenOff
  | screenOn
  | setBrightness
  | displayBitmap
deriving DecidableEq, Repr

/-- The instructions: the six commands with the operands each one uses (10_state.md R29, 30_encoding.md R95), and
the PIXEL16 data word of a payload (30_encoding.md R80, R89, R97). -/
inductive Instr where
  /-- Reset, `reset()` (43_display_commands.md R160). -/
  | reset
  /-- Clear, `clear()` (43_display_commands.md R161). -/
  | clear
  /-- ScreenOff, `screenOff()` (43_display_commands.md R162). -/
  | screenOff
  /-- ScreenOn, `screenOn()` (43_display_commands.md R163). -/
  | screenOn
  /-- SetBrightness, `setBrightness(level)` (43_display_commands.md R164); the level is the signed integer `req_x`. -/
  | setBrightness (level : Int)
  /-- DisplayBitmap, `displayImage(x, y, pixels)` (43_display_commands.md R165): top-left corner, width and height of
  the pixel buffer, as the signed integers `req_x`, `req_y`, `req_w`, `req_h`. -/
  | displayBitmap (x y w h : Int)
  /-- PIXEL16, the data word of a DisplayBitmap payload: the lanes `v[15:11]`, `v[10:5]`, `v[4:0]` (30_encoding.md R89). -/
  | pixel16 (r : BitVec 5) (g : BitVec 6) (b : BitVec 5)
deriving DecidableEq, Repr

/-- The request record `(req_cmd, req_x, req_y, req_w, req_h)` of 10_state.md R29. The operands are given as the
integers the host puts on the port; `Config.sext` reads what the port's OPW bits carry of them. -/
structure Request where
  cmd : Byte
  x : Int
  y : Int
  w : Int
  h : Int
deriving DecidableEq, Repr

end Sys2Proof
end

