-- ==== Sys2Proof/Machine/State.lean ====
section
/-! DEFINITION. The state of the block (10_state.md R21), its inputs and what is observed of it, all as plain data; the
reasons a step stops; the state after reset (10_state.md R36, 70_reset_and_hazards.md R210). -/

namespace Sys2Proof.Machine

/-- `PHASE` (10_state.md R22). -/
inductive Phase where
  /-- No operation in progress; a request may be accepted. -/
  | idle
  /-- A valid request has been accepted; its frame has not yet been written. -/
  | frame
  /-- Pixels are being read, converted and appended to `BUF`. -/
  | stream
  /-- `BUF` holds a chunk that must be written before anything else happens. -/
  | flush
  /-- All payload has been written; the settle delay has not yet elapsed. -/
  | settle
deriving DecidableEq, Repr

/-- The result of an operation (00_scope.md R16, 10_state.md R28). -/
inductive Result where
  | ok
  | invalidArgument
  | ioError
deriving DecidableEq, Repr

/-- The transport's answer to a `TxWrite` (10_state.md R31). -/
inductive Answer where
  | ok
  | fail
deriving DecidableEq, Repr

/-- One entry of the wire history: the bytes handed over and the outcome (10_state.md R32). -/
structure Write where
  bytes : List Byte
  outcome : Answer
deriving DecidableEq, Repr

/-- A request as the host presents it: the record of 10_state.md R29 and, with it, the pixel buffer (R30). -/
structure Presented where
  request : Request
  pixels : Memory
deriving DecidableEq, Repr

/-- The state. The first group is the block's own (10_state.md R21); `cfg` is the configuration, constant (R34); then the
block's inputs, and what is observed of it. -/
structure State where
  /-- `PHASE` (R22). -/
  phase : Phase
  /-- `CMD` (R23). -/
  cmd : Command
  /-- `FX` (R24). -/
  fx : Coord
  /-- `FY` (R24). -/
  fy : Coord
  /-- `FEX` (R24). -/
  fex : Coord
  /-- `FEY` (R24). -/
  fey : Coord
  /-- `W` (R25). -/
  w : Extent
  /-- `H` (R25). -/
  h : Extent
  /-- `ROW` (R26). -/
  row : Extent
  /-- `COL` (R26). -/
  col : Extent
  /-- `BUF` (R27), the valid bytes in the order they were appended. -/
  buf : List Byte
  /-- `FILL` (R27). -/
  fill : Nat
  /-- `STATUS.RESULT` (R28); `STATUS.BUSY` is derived from `PHASE` (`State.busy`). -/
  result : Result
  /-- The configuration constants (R34, 00_scope.md R8, R10); no transition writes them. -/
  cfg : Config
  /-- The request port: the requests the host will present, the first standing on the port (R29; entry 3). -/
  requests : List Presented
  /-- The pixel port: the buffer lent with the last presented request (R30; entry 9). -/
  pixels : Memory
  /-- The transport's answers to come, the first for the next write (R31; entry 4). -/
  answers : List Answer
  /-- The block's reset input (70_reset_and_hazards.md R210, R212; entry 7). -/
  rst : Bool
  /-- `HIST` (R32). -/
  hist : List Write
  /-- The bytes that have reached the far end of the transport (20_memory.md R55, R61; entries 5 and 16). -/
  wire : List Byte
  /-- The results reported since reset, in order (42_pixel_streamer.md R159; entry 16). -/
  results : List Result
  /-- How many free values have been drawn (entry 5). -/
  draws : Nat
deriving DecidableEq, Repr

/-- Why a step stops. -/
inductive Fault where
  /-- Raised by the pixel read of a DisplayBitmap (42_pixel_streamer.md R146) when the lent buffer does not hold the
  element under the cursor, a breach of the host's duty to supply all `W × H` elements (70_reset_and_hazards.md R213 d;
  20_memory.md R51). Safe: the model stops where the rules say nothing (entry 8). -/
  | pixelNotSupplied
deriving DecidableEq, Repr

/-- Why a step or an instruction has no meaning. -/
inductive Refusal where
  /-- Raised by `exec`'s arm of an instruction that has no meaning yet; no arm raises it now. Safe. -/
  | notModelled (mnemonic : String)
  /-- Raised by every step and every meaning under a configuration that is not well formed: "a model refuses any other"
  (00_scope.md R11). Safe (entry 2). -/
  | configIllFormed
deriving DecidableEq, Repr

/-- The configuration of `State.reset`. CHUNK_MULT, SETTLE_DELAY_MS, PIXEL_BYTE_ORDER and OPW at the spec's defaults
(00_scope.md R8, R10); the display size, which the spec leaves OPEN, is DESIGN CHOICE 320 × 480 (entries 1 and 19). -/
def resetConfig : Config :=
  { displayWidth := 320, displayHeight := 480, chunkMult := 8, settleDelayMs := 10, byteOrder := .le, opw := 32 }

/-- The machine right after reset (10_state.md R36, 70_reset_and_hazards.md R210). `CMD`, the latches and the cursor are
unspecified there; the values here are the model's (DESIGN CHOICE, entry 6). Nothing stands on the ports. -/
def State.reset : State where
  phase := .idle
  cmd := .reset
  fx := 0
  fy := 0
  fex := 0
  fey := 0
  w := 0
  h := 0
  row := 0
  col := 0
  buf := []
  fill := 0
  result := .ok
  cfg := resetConfig
  requests := []
  pixels := []
  answers := []
  rst := false
  hist := []
  wire := []
  results := []
  draws := 0

end Sys2Proof.Machine
end

