-- ==== Sys2Proof/Machine/Flags.lean ====
section
/-! DEFINITION. `STATUS`, the only state the host can read (10_state.md R28): BUSY derived from PHASE, RESULT with its
codes. The block has no condition codes (10_state.md R35). -/

namespace Sys2Proof.Machine

/-- `STATUS.BUSY`: 1 exactly when `PHASE ≠ IDLE` (10_state.md R28). -/
def State.busy (s : State) : BitVec 1 := if s.phase = .idle then 0 else 1

/-- The code of a result in `STATUS.RESULT`; the value 3 is never written (10_state.md R28, 60_exceptions.md R183). -/
def resultCode : Result → BitVec 2
  | .ok => 0
  | .invalidArgument => 1
  | .ioError => 2

/-- `STATUS` as the host reads it: its two fields (10_state.md R28). The spec gives the fields no bit positions
(DESIGN CHOICE, entry 21). -/
structure Status where
  busy : BitVec 1
  result : BitVec 2
deriving DecidableEq, Repr

/-- The host's read of `STATUS`; it has no side effect, so it is a function of the state and no step (10_state.md R28). -/
def readStatus (s : State) : Status := { busy := s.busy, result := resultCode s.result }

end Sys2Proof.Machine
end

