-- ==== Sys2Proof/Machine/ColorConverter.lean ====
section
/-! DEFINITION. The ColorConverter: `toRGB565` (40_color_converter.md R110) and `word_bytes` (R114), and the lanes of a
pixel word (30_encoding.md R89). No state, no error path. -/

namespace Sys2Proof.Machine

/-- `toRGB565(r, g, b) = ((r >> 3) << 11) | ((g >> 2) << 5) | (b >> 3)` at 16 bits (40_color_converter.md R110, R113). -/
def toRGB565 (r g b : Byte) : PixelWord :=
  ((r.setWidth 16 >>> 3) <<< 11) ||| ((g.setWidth 16 >>> 2) <<< 5) ||| (b.setWidth 16 >>> 3)

/-- `word_bytes(v)`: the two wire bytes of a pixel word in the configured order (40_color_converter.md R114). -/
def wordBytes (order : ByteOrder) (v : PixelWord) : List Byte :=
  match order with
  | .le => [v.extractLsb' 0 8, v.extractLsb' 8 8]
  | .be => [v.extractLsb' 8 8, v.extractLsb' 0 8]

/-- The 24-bit value `p` that carries a pixel: r = `p[23:16]`, g = `p[15:8]`, b = `p[7:0]` (20_memory.md R52). -/
def pixelOfBits (p : BitVec 24) : Pixel :=
  { r := p.extractLsb' 16 8, g := p.extractLsb' 8 8, b := p.extractLsb' 0 8 }

/-- The pixel as one 24-bit value (20_memory.md R52). -/
def pixelBits (p : Pixel) : BitVec 24 := p.r ++ p.g ++ p.b

/-- The pixel word of one pixel. -/
def pixelWord (p : Pixel) : PixelWord := toRGB565 p.r p.g p.b

/-- The word that three lanes make: `v[15:11]`, `v[10:5]`, `v[4:0]` (30_encoding.md R89). -/
def wordOfLanes (r : BitVec 5) (g : BitVec 6) (b : BitVec 5) : PixelWord := r ++ g ++ b

/-- The smallest pixel that converts to a given word: each lane in the high bits of its channel
(40_color_converter.md R111). -/
def pixelOfWord (v : PixelWord) : Pixel :=
  { r := v.extractLsb' 11 5 ++ 0#3, g := v.extractLsb' 5 6 ++ 0#2, b := v.extractLsb' 0 5 ++ 0#3 }

end Sys2Proof.Machine
end

