-- ==== Sys2Proof/Machine/FrameEncoder.lean ====
section
/-! DEFINITION. The FrameEncoder: `encode` by the byte formula (41_frame_encoder.md R120), its domain (R121) and the
48-bit number of the frame (30_encoding.md R82). No state, no checks inside the domain (R127). -/

namespace Sys2Proof.Machine

/-- The six values of the packing formula of 41_frame_encoder.md R120, on any natural numbers. -/
def frameFormula (cmd x y ex ey : Nat) : List Nat :=
  [x >>> 2,
   ((x &&& 3) <<< 6) + (y >>> 4),
   ((y &&& 15) <<< 4) + (ex >>> 6),
   ((ex &&& 63) <<< 2) + (ey >>> 8),
   ey &&& 255,
   cmd]

/-- `encode(cmd, x, y, ex, ey)` on its domain, four 10-bit fields and an 8-bit opcode
(41_frame_encoder.md R120, R121). -/
def encodeFrame (cmd : Byte) (x y ex ey : Coord) : List Byte :=
  (frameFormula cmd.toNat x.toNat y.toNat ex.toNat ey.toNat).map (BitVec.ofNat 8)

/-- The bare `encode` of integers: refused outside the domain of 41_frame_encoder.md R121 (93_implementation_defined.md
U5), the formula inside it. -/
def encodeChecked (cmd x y ex ey : Nat) : Option (List Byte) :=
  if cmd ≤ 255 ∧ x ≤ 1023 ∧ y ≤ 1023 ∧ ex ≤ 1023 ∧ ey ≤ 1023 then
    some ((frameFormula cmd x y ex ey).map (BitVec.ofNat 8))
  else none

/-- `F`: the frame as one 48-bit number, x in `F[47:38]`, y in `F[37:28]`, ex in `F[27:18]`, ey in `F[17:8]`, cmd in
`F[7:0]` (30_encoding.md R82). -/
def frameNumber (cmd : Byte) (x y ex ey : Coord) : BitVec 48 := x ++ y ++ ex ++ ey ++ cmd

/-- A 48-bit number as six bytes, most significant first (20_memory.md R56, 30_encoding.md R82). -/
def bytesOfNumber (f : BitVec 48) : List Byte :=
  [f.extractLsb' 40 8, f.extractLsb' 32 8, f.extractLsb' 24 8, f.extractLsb' 16 8, f.extractLsb' 8 8, f.extractLsb' 0 8]

end Sys2Proof.Machine
end

