-- ==== Sys2Proof/Machine/Parameters.lean ====
section
/-! DEFINITION. What the rules derive from the configuration: CHUNK_BYTES (00_scope.md R9), well-formedness (R11), the
reading of a signed OPW-bit operand (R14, 10_state.md R29). -/

namespace Sys2Proof

/-- `CHUNK_BYTES = DISPLAY_WIDTH × CHUNK_MULT` (00_scope.md R9). -/
def Config.chunkBytes (c : Config) : Nat := c.displayWidth * c.chunkMult

/-- Configuration well-formedness (00_scope.md R11). -/
def Config.wf (c : Config) : Bool :=
  decide (1 ≤ c.displayWidth ∧ c.displayWidth ≤ 1024 ∧ 1 ≤ c.displayHeight ∧ c.displayHeight ≤ 1024
    ∧ 1 ≤ c.chunkMult ∧ c.chunkBytes % 2 = 0 ∧ 0 ≤ c.settleDelayMs ∧ 12 ≤ c.opw)

/-- `sext`: the integer that an OPW-bit two's-complement operand of the request port carries (10_state.md R29,
00_scope.md R14). An integer that OPW signed bits hold is read as itself; of any other the port carries the low OPW
bits (DESIGN CHOICE, entry 17). -/
def Config.sext (c : Config) (v : Int) : Int := (BitVec.ofInt c.opw v).toInt

end Sys2Proof
end

