-- ==== Sys2Proof/WellFormed.lean ====
section
/-! DEFINITION. Well-formedness of an instruction as syntax: it has an encoding, because every value it packs fits its
field (30_encoding.md R84, R86, R87). Whether a request is VALID under a configuration is
43_display_commands.md R166, in Machine/Operands.lean. -/

namespace Sys2Proof

/-- The instruction has a frame (or a data word): the level fits 0 .. 255 (30_encoding.md R87); the rectangle is not
empty, starts at non-negative coordinates, and its inclusive end fits the 10-bit fields (30_encoding.md R84, R86). -/
def Instr.wellFormed : Instr → Bool
  | .reset => true
  | .clear => true
  | .screenOff => true
  | .screenOn => true
  | .setBrightness level => decide (0 ≤ level ∧ level ≤ 255)
  | .displayBitmap x y w h =>
    decide (0 < w ∧ 0 < h ∧ 0 ≤ x ∧ 0 ≤ y ∧ x + w - 1 ≤ 1023 ∧ y + h - 1 ≤ 1023)
  | .pixel16 _ _ _ => true

end Sys2Proof
end

