-- ==== Sys2Proof/Decode.lean ====
section
/-! DEFINITION. The opcode map, the decoder of the wire (30_encoding.md R98) and of the request port
(43_display_commands.md R166, R167), the encoder, and the host's reading of the opcode table's words.

There are two places an instruction is read from. On the wire it is bytes: a six-byte frame, or, where a
DisplayBitmap's payload stands, a two-byte data word; which of the two is told by position only (30_encoding.md R97,
R98). On the request port it is the record of 10_state.md R29. -/

namespace Sys2Proof

open Machine

/-- The opcode bytes (30_encoding.md R85). -/
def opcode : Command → Byte
  | .reset => 101
  | .clear => 102
  | .screenOff => 108
  | .screenOn => 109
  | .setBrightness => 110
  | .displayBitmap => 197

/-- The command an opcode byte selects; none for the other 250 values (30_encoding.md R93). -/
def commandOf (b : Byte) : Option Command :=
  if b = 101 then some .reset
  else if b = 102 then some .clear
  else if b = 108 then some .screenOff
  else if b = 109 then some .screenOn
  else if b = 110 then some .setBrightness
  else if b = 197 then some .displayBitmap
  else none

/-- Why the wire decoder refuses. Each is a sequence the block never emits (30_encoding.md R93, R94), or the end of the
bytes; safe: a refused sequence gets no meaning. -/
inductive DecodeError where
  /-- Fewer bytes than the format has (30_encoding.md R80). -/
  | tooShort
  /-- An opcode byte outside the six (30_encoding.md R93). -/
  | unknownOpcode
  /-- A control opcode or SetBrightness with a non-zero y, ex or ey, or a control opcode with a non-zero x
  (30_encoding.md R94). -/
  | nonZeroRectangle
  /-- SetBrightness with x ≥ 256 (30_encoding.md R94). -/
  | levelTooWide
  /-- DisplayBitmap with ex < x or ey < y (30_encoding.md R94). -/
  | invertedRectangle
deriving DecidableEq, Repr

/-- Where the decoder stands in the stream (30_encoding.md R97, R98). -/
inductive Slot where
  /-- A frame stands here. -/
  | command
  /-- A data word of a DisplayBitmap payload stands here. -/
  | dataWord
deriving DecidableEq, Repr

/-- A control opcode's frame: the instruction when the rectangle is the zero rectangle (30_encoding.md R88), refused
otherwise (R94). -/
def decodeControl (i : Instr) (x y ex ey : Coord) : Except DecodeError Instr :=
  if x = 0 ∧ y = 0 ∧ ex = 0 ∧ ey = 0 then .ok i else .error .nonZeroRectangle

/-- The instruction of a frame's fields. A control opcode takes the zero rectangle (30_encoding.md R88), SetBrightness
the level in x and zeros elsewhere (R87), DisplayBitmap the inclusive rectangle (R86). What the block never emits
(R94) is refused by name (DESIGN CHOICE, entry 12). -/
def decodeFields (cmd : Byte) (x y ex ey : Coord) : Except DecodeError Instr :=
  match commandOf cmd with
  | none => .error .unknownOpcode
  | some .reset => decodeControl .reset x y ex ey
  | some .clear => decodeControl .clear x y ex ey
  | some .screenOff => decodeControl .screenOff x y ex ey
  | some .screenOn => decodeControl .screenOn x y ex ey
  | some .setBrightness =>
    if y = 0 ∧ ex = 0 ∧ ey = 0 then
      if x.toNat ≤ 255 then .ok (.setBrightness x.toNat) else .error .levelTooWide
    else .error .nonZeroRectangle
  | some .displayBitmap =>
    if x.toNat ≤ ex.toNat ∧ y.toNat ≤ ey.toNat then
      .ok (.displayBitmap x.toNat y.toNat ((ex.toNat : Int) - x.toNat + 1) ((ey.toNat : Int) - y.toNat + 1))
    else .error .invertedRectangle

/-- `x = (b0 << 2) | (b1 >> 6)` (30_encoding.md R98). -/
def frameX (b0 b1 : Byte) : Coord := (b0.setWidth 10 <<< 2) ||| (b1.setWidth 10 >>> 6)

/-- `y = ((b1 & 63) << 4) | (b2 >> 4)` (30_encoding.md R98). -/
def frameY (b1 b2 : Byte) : Coord := ((b1.setWidth 10 &&& 63) <<< 4) ||| (b2.setWidth 10 >>> 4)

/-- `ex = ((b2 & 15) << 6) | (b3 >> 2)` (30_encoding.md R98). -/
def frameEx (b2 b3 : Byte) : Coord := ((b2.setWidth 10 &&& 15) <<< 6) ||| (b3.setWidth 10 >>> 2)

/-- `ey = ((b3 & 3) << 8) | b4` (30_encoding.md R98). -/
def frameEy (b3 b4 : Byte) : Coord := ((b3.setWidth 10 &&& 3) <<< 8) ||| b4.setWidth 10

/-- The PIXEL16 instruction of a 16-bit word: its three lanes (30_encoding.md R89). -/
def instrOfWord (v : PixelWord) : Instr :=
  .pixel16 (v.extractLsb' 11 5) (v.extractLsb' 5 6) (v.extractLsb' 0 5)

/-- The word whose two wire bytes are `b0` then `b1` (40_color_converter.md R114, read backwards). -/
def wordOfBytes (order : ByteOrder) (b0 b1 : Byte) : PixelWord :=
  match order with
  | .le => b1 ++ b0
  | .be => b0 ++ b1

/-- The instruction at the front of the bytes, and the bytes after it (30_encoding.md R98). Total: what is no
instruction is refused by name. -/
def decode (order : ByteOrder) (slot : Slot) (bytes : List Byte) : Except DecodeError (Instr × List Byte) :=
  match slot with
  | .command =>
    match bytes with
    | b0 :: b1 :: b2 :: b3 :: b4 :: b5 :: rest =>
      match decodeFields b5 (frameX b0 b1) (frameY b1 b2) (frameEx b2 b3) (frameEy b3 b4) with
      | .ok i => .ok (i, rest)
      | .error e => .error e
    | _ => .error .tooShort
  | .dataWord =>
    match bytes with
    | b0 :: b1 :: rest => .ok (instrOfWord (wordOfBytes order b0 b1), rest)
    | _ => .error .tooShort

/-- How many data words follow an instruction on the wire: `W × H` after a DisplayBitmap frame, none after any other
(30_encoding.md R80, R91). -/
def payloadWords : Instr → Nat
  | .reset => 0
  | .clear => 0
  | .screenOff => 0
  | .screenOn => 0
  | .setBrightness _ => 0
  | .displayBitmap _ _ w h => w.toNat * h.toNat
  | .pixel16 _ _ _ => 0

/-- The whole of a wire stream as instructions: frames, and after a DisplayBitmap frame its data words
(30_encoding.md R98). `pending` counts the data words still due; `fuel` bounds the number of instructions read, and the
number of bytes is enough of it. None where the bytes do not decode, or end inside an instruction or a payload. -/
def decodeStreamFrom (order : ByteOrder) : Nat → Nat → List Byte → Option (List Instr)
  | 0, pending, bytes => if pending = 0 ∧ bytes = [] then some [] else none
  | fuel + 1, pending, bytes =>
    if pending = 0 ∧ bytes = [] then some []
    else
      match decode order (if pending = 0 then .command else .dataWord) bytes with
      | .error _ => none
      | .ok (i, rest) =>
        (decodeStreamFrom order fuel (if pending = 0 then payloadWords i else pending - 1) rest).map (i :: ·)

/-- Decoding of a wire stream from its first byte (30_encoding.md R98). -/
def decodeStream (order : ByteOrder) (bytes : List Byte) : Option (List Instr) :=
  decodeStreamFrom order bytes.length 0 bytes

/-- The operation a request selects, with the operands that operation uses and no other (10_state.md R29,
30_encoding.md R95). None when `req_cmd` is none of the six opcodes (43_display_commands.md R167). -/
def decodeRequest (c : Config) (q : Request) : Option Instr :=
  match commandOf q.cmd with
  | none => none
  | some .reset => some .reset
  | some .clear => some .clear
  | some .screenOff => some .screenOff
  | some .screenOn => some .screenOn
  | some .setBrightness => some (.setBrightness (c.sext q.x))
  | some .displayBitmap => some (.displayBitmap (c.sext q.x) (c.sext q.y) (c.sext q.w) (c.sext q.h))

/-! The encoder: the wire bytes of a well-formed instruction. -/

/-- The wire bytes of one instruction: a command's frame (30_encoding.md R81, R86 to R88), or a data word's two bytes
(40_color_converter.md R114). The payload of a DisplayBitmap is not part of its frame: its words are instructions of
their own on the wire. -/
def encode (order : ByteOrder) : Instr → List Byte
  | .reset => encodeFrame (opcode .reset) 0 0 0 0
  | .clear => encodeFrame (opcode .clear) 0 0 0 0
  | .screenOff => encodeFrame (opcode .screenOff) 0 0 0 0
  | .screenOn => encodeFrame (opcode .screenOn) 0 0 0 0
  | .setBrightness level => encodeFrame (opcode .setBrightness) (BitVec.ofInt 10 level) 0 0 0
  | .displayBitmap x y w h =>
    encodeFrame (opcode .displayBitmap) (BitVec.ofInt 10 x) (BitVec.ofInt 10 y)
      (BitVec.ofInt 10 (x + w - 1)) (BitVec.ofInt 10 (y + h - 1))
  | .pixel16 r g b => wordBytes order (wordOfLanes r g b)

/-- Where on the wire an instruction stands. -/
def slotOf : Instr → Slot
  | .reset => .command
  | .clear => .command
  | .screenOff => .command
  | .screenOn => .command
  | .setBrightness _ => .command
  | .displayBitmap _ _ _ _ => .command
  | .pixel16 _ _ _ => .dataWord

/-- The request record that asks for an operation (30_encoding.md R95), with zeros for the operands it ignores; none for
a data word, which no request carries. -/
def encodeRequest : Instr → Option Request
  | .reset => some { cmd := opcode .reset, x := 0, y := 0, w := 0, h := 0 }
  | .clear => some { cmd := opcode .clear, x := 0, y := 0, w := 0, h := 0 }
  | .screenOff => some { cmd := opcode .screenOff, x := 0, y := 0, w := 0, h := 0 }
  | .screenOn => some { cmd := opcode .screenOn, x := 0, y := 0, w := 0, h := 0 }
  | .setBrightness level => some { cmd := opcode .setBrightness, x := level, y := 0, w := 0, h := 0 }
  | .displayBitmap x y w h => some { cmd := opcode .displayBitmap, x := x, y := y, w := w, h := h }
  | .pixel16 _ _ _ => none

/-! The host's words of spec/opcode_table.json. -/

/-- The wire bytes of a table word (entry 13): 16 bits are a PIXEL16 word in the default byte order; up to 48 bits are
the frame number `F` of 30_encoding.md R82, bits above `nbits` zero. -/
def tableBytes (nbits w : Nat) : List Byte :=
  if nbits = 16 then wordBytes .le (BitVec.ofNat 16 w) else bytesOfNumber (BitVec.ofNat 48 w)

/-- The instruction the decoder reads from a word of the opcode table: a word of 16 bits stands where a data word
stands, any other where a frame stands (entry 13). -/
def decodeTableWord (nbits w : Nat) : Option Instr :=
  if nbits ≤ 48 ∧ w < 2 ^ nbits then
    match decode .le (if nbits = 16 then .dataWord else .command) (tableBytes nbits w) with
    | .ok (i, _) => some i
    | .error _ => none
  else none

end Sys2Proof
end

