-- ==== Sys2Proof/Machine/Operands.lean ====
section
/-! DEFINITION. Operands: the validity of a request (43_display_commands.md R164 to R166), what the latches hold
(10_state.md R23 to R25), the frame they give, and the pixel cursor (R26). -/

namespace Sys2Proof.Machine

/-- The validity condition of SetBrightness: 0 ≤ level ≤ 255 (43_display_commands.md R164). -/
def levelValid (level : Int) : Bool := decide (0 ≤ level ∧ level ≤ 255)

/-- The validity conditions (a) to (f) of DisplayBitmap, in exact integer arithmetic (43_display_commands.md R165). -/
def rectangleValid (c : Config) (x y w h : Int) : Bool :=
  decide (0 < w ∧ 0 < h ∧ 0 ≤ x ∧ 0 ≤ y ∧ x + w - 1 < c.displayWidth ∧ y + h - 1 < c.displayHeight)

/-- Validity of an operation under a configuration (43_display_commands.md R166). A data word is no request. -/
def valid (c : Config) : Instr → Bool
  | .reset => true
  | .clear => true
  | .screenOff => true
  | .screenOn => true
  | .setBrightness level => levelValid level
  | .displayBitmap x y w h => rectangleValid c x y w h
  | .pixel16 _ _ _ => false

/-- The operation in progress, read back from the latches `CMD`, `FX`, `FY`, `W`, `H` (10_state.md R23 to R25). -/
def State.latched (s : State) : Instr :=
  match s.cmd with
  | .reset => .reset
  | .clear => .clear
  | .screenOff => .screenOff
  | .screenOn => .screenOn
  | .setBrightness => .setBrightness s.fx.toNat
  | .displayBitmap => .displayBitmap s.fx.toNat s.fy.toNat s.w.toNat s.h.toNat

/-- `encode(CMD, FX, FY, FEX, FEY)`, the frame of the operation in progress (42_pixel_streamer.md R143 to R145). -/
def State.frameBytes (s : State) : List Byte := encodeFrame (opcode s.cmd) s.fx s.fy s.fex s.fey

/-- The linear index of the pixel under the cursor, `ROW × W + COL` (10_state.md R26). -/
def State.cursorIndex (s : State) : Nat := s.row.toNat * s.w.toNat + s.col.toNat

/-- The cursor is at the end exactly when `ROW = H` (10_state.md R26). -/
def State.atEnd (s : State) : Bool := decide (s.row = s.h)

/-- `COL` after the cursor advances by one pixel (10_state.md R26). -/
def State.nextCol (s : State) : Extent := if s.col.toNat + 1 < s.w.toNat then s.col + 1 else 0

/-- `ROW` after the cursor advances by one pixel (10_state.md R26). -/
def State.nextRow (s : State) : Extent := if s.col.toNat + 1 < s.w.toNat then s.row else s.row + 1

end Sys2Proof.Machine
end

