-- ==== Sys2Proof/Machine/Ops.lean ====
section
/-! DEFINITION. The named operations: the register updates, `TxWrite` (10_state.md R31), the two errors
(60_exceptions.md R188, R189), the ten transitions of 42_pixel_streamer.md R142 to R151, the block reset
(70_reset_and_hazards.md R210, R212), and the shape every command's meaning has. -/

namespace Sys2Proof.Machine

/-! Register updates. -/

/-- `PHASE <- p` (00_scope.md R14). -/
def setPhase (p : Phase) (s : State) : State := { s with phase := p }

/-- Load `CMD`, `FX`, `FY`, `FEX`, `FEY` (10_state.md R23, R24). -/
def latch (cmd : Command) (fx fy fex fey : Coord) (s : State) : State :=
  { s with cmd := cmd, fx := fx, fy := fy, fex := fex, fey := fey }

/-- Load `W` and `H` (10_state.md R25). -/
def latchSize (w h : Extent) (s : State) : State := { s with w := w, h := h }

/-- `ROW <- 0; COL <- 0` (10_state.md R26). -/
def startCursor (s : State) : State := { s with row := 0, col := 0 }

/-- The cursor advances by one pixel (10_state.md R26). -/
def advanceCursor (s : State) : State := { s with row := s.nextRow, col := s.nextCol }

/-- `BUF <- BUF ++ bytes; FILL <- FILL + |bytes|` (10_state.md R27). -/
def appendBytes (bytes : List Byte) (s : State) : State :=
  { s with buf := s.buf ++ bytes, fill := s.fill + bytes.length }

/-- `BUF <- []; FILL <- 0` (10_state.md R27). -/
def emptyBuffer (s : State) : State := { s with buf := [], fill := 0 }

/-- An operation completes with a result: `STATUS.RESULT` is written and `PHASE` is IDLE (10_state.md R28); the list of
results grows (42_pixel_streamer.md R159). -/
def complete (r : Result) (s : State) : State :=
  { s with phase := .idle, result := r, results := s.results ++ [r] }

/-! The transport. -/

/-- The bytes of a write that reach the far end: all of them when the answer is `ok`, the prefix of a given length when
it is `fail` (20_memory.md R61). -/
def delivered (answer : Answer) (n : Nat) (bytes : List Byte) : List Byte :=
  match answer with
  | .ok => bytes
  | .fail => bytes.take n

/-- One answered `TxWrite`: the transport's answer is used up, HIST gets the entry (10_state.md R32), the wire the bytes
delivered. How much of a failed write that is, is a free value (20_memory.md R61, entry 5). -/
def recordWrite (bytes : List Byte) (answer : Answer) (s : State) : State :=
  { s with
    answers := s.answers.tail
    hist := s.hist ++ [{ bytes := bytes, outcome := answer }]
    wire := s.wire ++ delivered answer (Config.failedPrefix s.draws) bytes
    draws := if answer = .fail then s.draws + 1 else s.draws }

/-- `TxWrite(bytes)` with what follows each answer (10_state.md R31). Unanswered, the block waits where it is: nothing
changes (70_reset_and_hazards.md R224, entry 4). -/
def txWrite (bytes : List Byte) (onOk onFail : State → State) (s : State) : State :=
  match s.answers with
  | [] => s
  | .ok :: _ => onOk (recordWrite bytes .ok s)
  | .fail :: _ => onFail (recordWrite bytes .fail s)

/-! The two errors: taking them is all there is, there is no handler and no return (60_exceptions.md R190). -/

/-- `raise InvalidArgument` (60_exceptions.md R188): `STATUS.RESULT <- 1`; nothing else of the block changes. -/
def raiseInvalidArgument (s : State) : State := complete .invalidArgument s

/-- `raise IoError` (60_exceptions.md R189): `STATUS.RESULT <- 2; BUF <- []; FILL <- 0; PHASE <- IDLE`. -/
def raiseIoError (s : State) : State := complete .ioError (emptyBuffer s)

/-! The transitions. -/

/-- *accept* (42_pixel_streamer.md R142): the command's latches are loaded and `PHASE <- FRAME`. -/
def accept (load : State → State) (s : State) : State := setPhase .frame (load s)

/-- *reject* (42_pixel_streamer.md R151). -/
def reject (s : State) : State := raiseInvalidArgument s

/-- *frame-ok-control* (42_pixel_streamer.md R143), after the write is recorded. -/
def frameOkControl (s : State) : State := complete .ok s

/-- *frame-ok-blit* (42_pixel_streamer.md R144), after the write is recorded. -/
def frameOkBlit (s : State) : State := setPhase .stream (emptyBuffer (startCursor s))

/-- *frame-fail* (42_pixel_streamer.md R145), after the write is recorded. -/
def frameFail (s : State) : State := raiseIoError s

/-- The transition out of FRAME that the transport's answer selects (42_pixel_streamer.md R143, R144, R145). -/
def frameTransition (s : State) : State :=
  txWrite s.frameBytes (if s.cmd = .displayBitmap then frameOkBlit else frameOkControl) frameFail s

/-- What *pixel* does with the word under the cursor: append its two bytes, advance the cursor, and go to FLUSH when
`FILL = CHUNK_BYTES` or the cursor is at the end (42_pixel_streamer.md R146). -/
def appendWord (v : PixelWord) (s : State) : State :=
  let t := advanceCursor (appendBytes (wordBytes s.cfg.byteOrder v) s)
  if t.fill = t.cfg.chunkBytes ∨ t.atEnd = true then setPhase .flush t else t

/-- *flush-ok-more* (42_pixel_streamer.md R147), after the write is recorded. -/
def flushOkMore (s : State) : State := setPhase .stream (emptyBuffer s)

/-- *flush-ok-end* (42_pixel_streamer.md R148), after the write is recorded. -/
def flushOkEnd (s : State) : State := setPhase .settle (emptyBuffer s)

/-- *flush-fail* (42_pixel_streamer.md R149), after the write is recorded. -/
def flushFail (s : State) : State := raiseIoError s

/-- The transition out of FLUSH that the transport's answer selects (42_pixel_streamer.md R147, R148, R149). -/
def flushTransition (s : State) : State :=
  txWrite s.buf (if s.atEnd = true then flushOkEnd else flushOkMore) flushFail s

/-- *settle-done* (42_pixel_streamer.md R150): the settle delay, one step without duration (R141). -/
def settleDone (s : State) : State := complete .ok s

/-- The transition the block takes on its own in a phase other than IDLE (42_pixel_streamer.md R143 to R150); in IDLE it
takes none (R159). -/
def advance (s : State) : Host.Outcome State Fault Refusal :=
  match s.phase with
  | .idle => .next s
  | .frame => .next (frameTransition s)
  | .stream =>
    match memRead s.pixels s.cursorIndex with
    | some p => .next (appendWord (pixelWord p) s)
    | none => .fault .pixelNotSupplied
  | .flush => .next (flushTransition s)
  | .settle => .next (settleDone s)

/-! Presenting a request and block reset. -/

/-- The host's step: the first request leaves the list for the port and its pixel buffer stands on the pixel port, where
it stays until the next request is presented (10_state.md R29, R30, 20_memory.md R70; entries 3 and 9). -/
def present (p : Presented) (rest : List Presented) (s : State) : State :=
  { s with requests := rest, pixels := p.pixels }

/-- The bytes of a write in progress: the frame in FRAME, the chunk in FLUSH (70_reset_and_hazards.md R212); none in any
other phase. -/
def State.writeInProgress (s : State) : Option (List Byte) :=
  match s.phase with
  | .idle => none
  | .frame => some s.frameBytes
  | .stream => none
  | .flush => some s.buf
  | .settle => none

/-- Block reset (70_reset_and_hazards.md R210, R212): the block's state takes the values of reset, HIST is empty, no write
is issued and no result reported. The configuration and the ports stay. A write in progress counts as failed: an
unspecified prefix of it has reached the wire (entries 5 and 7). -/
def blockReset (s : State) : State :=
  { State.reset with
    cfg := s.cfg
    requests := s.requests
    pixels := s.pixels
    answers := s.answers
    wire := s.wire ++ delivered .fail (Config.failedPrefix s.draws) (s.writeInProgress.getD [])
    draws := if s.writeInProgress.isSome then s.draws + 1 else s.draws }

/-! The shape of a command's meaning. -/

/-- What a command does in every phase. In IDLE it is the request presented: accepted with its latches when valid,
rejected otherwise (42_pixel_streamer.md R142, R151). In another phase, when the latches hold this very command, it is
the operation in progress and takes its next transition (R143 to R150); when they hold another, it is not accepted and
has no effect (R142; entry 10). Under a configuration that is not well formed it is refused (00_scope.md R11). -/
def runCommand (i : Instr) (isValid : Bool) (load : State → State) (s : State) : Host.Outcome State Fault Refusal :=
  if s.cfg.wf then
    if s.phase = .idle then .next (if isValid then accept load s else reject s)
    else if s.latched = i then advance s
    else .next s
  else .refused .configIllFormed

end Sys2Proof.Machine
end

