-- ==== Sys2Proof/Machine/Blit.lean ====
section
/-! DEFINITION. DisplayBitmap (43_display_commands.md R165) and its data word PIXEL16 (30_encoding.md R89,
42_pixel_streamer.md R146). -/

namespace Sys2Proof.Machine

/-- DisplayBitmap (43_display_commands.md R165): valid exactly when conditions (a) to (f) hold; `CMD <- 197; FX <- x;
FY <- y; FEX <- x + W - 1; FEY <- y + H - 1; W <- W; H <- H`. -/
def execDisplayBitmap (x y w h : Int) (s : State) : Host.Outcome State Fault Refusal :=
  runCommand (.displayBitmap x y w h) (rectangleValid s.cfg x y w h)
    (fun t => latchSize (BitVec.ofInt 11 w) (BitVec.ofInt 11 h)
      (latch .displayBitmap (BitVec.ofInt 10 x) (BitVec.ofInt 10 y)
        (BitVec.ofInt 10 (x + w - 1)) (BitVec.ofInt 10 (y + h - 1)) t)) s

/-- PIXEL16, the data word of a payload: in STREAM its two bytes are appended to BUF and the cursor advances, the effect
of transition *pixel* (42_pixel_streamer.md R146). In any other phase no transition takes a data word (R159,
30_encoding.md R80), so it has no effect (entry 11). -/
def execPixel16 (r : BitVec 5) (g : BitVec 6) (b : BitVec 5) (s : State) : Host.Outcome State Fault Refusal :=
  if s.cfg.wf then
    if s.phase = .stream then .next (appendWord (wordOfLanes r g b) s) else .next s
  else .refused .configIllFormed

end Sys2Proof.Machine
end

