-- ==== Sys2Proof/Machine/Control.lean ====
section
/-! DEFINITION. The five commands that are one frame: Reset, Clear, ScreenOff, ScreenOn, SetBrightness
(43_display_commands.md R160 to R164). -/

namespace Sys2Proof.Machine

/-- Reset (43_display_commands.md R160): always valid; `CMD <- 101` and the zero rectangle. It asks the display controller
to reset and leaves the block as any completed operation does (70_reset_and_hazards.md R211). -/
def execReset (s : State) : Host.Outcome State Fault Refusal :=
  runCommand .reset true (latch .reset 0 0 0 0) s

/-- Clear (43_display_commands.md R161): always valid; `CMD <- 102` and the zero rectangle. -/
def execClear (s : State) : Host.Outcome State Fault Refusal :=
  runCommand .clear true (latch .clear 0 0 0 0) s

/-- ScreenOff (43_display_commands.md R162): always valid; `CMD <- 108` and the zero rectangle. -/
def execScreenOff (s : State) : Host.Outcome State Fault Refusal :=
  runCommand .screenOff true (latch .screenOff 0 0 0 0) s

/-- ScreenOn (43_display_commands.md R163): always valid; `CMD <- 109` and the zero rectangle. -/
def execScreenOn (s : State) : Host.Outcome State Fault Refusal :=
  runCommand .screenOn true (latch .screenOn 0 0 0 0) s

/-- SetBrightness (43_display_commands.md R164): valid exactly when 0 ≤ level ≤ 255; `CMD <- 110; FX <- level`, the rest
zero. -/
def execSetBrightness (level : Int) (s : State) : Host.Outcome State Fault Refusal :=
  runCommand (.setBrightness level) (levelValid level) (latch .setBrightness (BitVec.ofInt 10 level) 0 0 0) s

end Sys2Proof.Machine
end

