-- ==== Sys2Proof/Machine/Dispatch.lean ====
section
/-! DEFINITION. One arm per constructor of `Instr`, each one direct call of its meaning. -/

namespace Sys2Proof.Machine

def exec (i : Instr) (s : State) : Host.Outcome State Fault Refusal :=
  match i with
  | .reset => Sys2Proof.Machine.execReset s
  | .clear => Sys2Proof.Machine.execClear s
  | .screenOff => Sys2Proof.Machine.execScreenOff s
  | .screenOn => Sys2Proof.Machine.execScreenOn s
  | .setBrightness level => Sys2Proof.Machine.execSetBrightness level s
  | .displayBitmap x y w h => Sys2Proof.Machine.execDisplayBitmap x y w h s
  | .pixel16 r g b => Sys2Proof.Machine.execPixel16 r g b s

end Sys2Proof.Machine
end

