-- ==== Sys2Proof/Machine/Fetch.lean ====
section
/-! DEFINITION. Where a step takes its instruction from. The block fetches no instructions from a memory (00_scope.md R2);
`PHASE` and the cursor play the part of a program counter (10_state.md R22): in IDLE the instruction is the request on
the port, in STREAM it is the data word of the pixel under the cursor, in FRAME, FLUSH and SETTLE it is the operation
the latches hold. -/

namespace Sys2Proof.Machine

/-- What a step finds. -/
inductive Fetched where
  /-- An instruction, and the state it acts on. -/
  | instr (i : Instr) (s : State)
  /-- A request whose `req_cmd` is none of the six opcodes (43_display_commands.md R167), and the state after it is
  presented. -/
  | unknownCommand (s : State)
  /-- IDLE with no request on the port. -/
  | nothing
  /-- STREAM with an element under the cursor that the lent buffer does not hold (entry 8). -/
  | noPixel

/-- The instruction at the sequencer. -/
def fetch (s : State) : Fetched :=
  match s.phase with
  | .idle =>
    match s.requests with
    | [] => .nothing
    | p :: rest =>
      match decodeRequest s.cfg p.request with
      | some i => .instr i (present p rest s)
      | none => .unknownCommand (present p rest s)
  | .frame => .instr s.latched s
  | .stream =>
    match memRead s.pixels s.cursorIndex with
    | some p => .instr (instrOfWord (pixelWord p)) s
    | none => .noPixel
  | .flush => .instr s.latched s
  | .settle => .instr s.latched s

/-- The request that puts the frame `F` on the wire (30_encoding.md R95, and R86, R87 read backwards): `req_x` is the x
field, the size is the rectangle's. -/
def requestOfFrame (f : BitVec 48) : Request :=
  { cmd := f.extractLsb' 0 8
    x := (f.extractLsb' 38 10).toNat
    y := (f.extractLsb' 28 10).toNat
    w := ((f.extractLsb' 18 10).toNat : Int) - (f.extractLsb' 38 10).toNat + 1
    h := ((f.extractLsb' 8 10).toNat : Int) - (f.extractLsb' 28 10).toNat + 1 }

/-- A request with a buffer that holds every element it asks for, all black (70_reset_and_hazards.md R213 d). -/
def presentedOfFrame (f : BitVec 48) : Presented :=
  let q := requestOfFrame f
  { request := q
    pixels :=
      if q.cmd = opcode .displayBitmap then
        bufferOf (List.replicate (q.w.toNat * q.h.toNat) { r := 0, g := 0, b := 0 })
      else [] }

/-- The state whose next step runs the instruction of a table word (entries 13 and 14). A frame becomes the request on
the port of an idle block. A data word becomes the one pixel of a 1 × 1 DisplayBitmap that stands at the start of its
stream. -/
def storeFetchWord (s : State) (nbits w : Nat) : State :=
  if nbits = 16 then
    { s with
      rst := false
      phase := .stream
      cmd := .displayBitmap
      w := 1
      h := 1
      row := 0
      col := 0
      pixels := bufferOf [pixelOfWord (BitVec.ofNat 16 w)] }
  else
    { s with
      rst := false
      phase := .idle
      requests := presentedOfFrame (BitVec.ofNat 48 w) :: s.requests }

end Sys2Proof.Machine
end

