-- ==== Sys2Proof/Machine/Step.lean ====
section
/-! DEFINITION. One step: one transaction of the block (00_scope.md R7). -/

namespace Sys2Proof.Machine

/-- One step. A configuration that is not well formed is refused (00_scope.md R11); an asserted reset input resets the
block in whatever phase it is (70_reset_and_hazards.md R212); otherwise the instruction at the sequencer is executed, an
unknown command is rejected (43_display_commands.md R167), and an idle block with no request stays as it is. -/
def step (s : State) : Host.Outcome State Fault Refusal :=
  if s.cfg.wf then
    if s.rst then .next (blockReset s)
    else
      match fetch s with
      | .instr i t => exec i t
      | .unknownCommand t => .next (reject t)
      | .nothing => .next s
      | .noPixel => .fault .pixelNotSupplied
  else .refused .configIllFormed

/-- `s` with the instruction of a table word stored where `step` takes its next instruction (entries 13 and 14). -/
def State.withFetchWord (s : State) (nbits w : Nat) : State := storeFetchWord s nbits w

end Sys2Proof.Machine
end

