-- ==== Sys2Proof/Machine/Payload.lean ====
section
/-! DEFINITION. The closed form of a whole operation (42_pixel_streamer.md Part 3): `payload` (R152), `chunks` (R153), the
writes an operation issues when none fails (R154) and how many transitions it takes (R159). The step relation does not
use these; statements compare it with them. -/

namespace Sys2Proof.Machine

/-- `n` steps, stopping at the first fault or refusal: the host's run of the machine. -/
def run (n : Nat) (s : State) : Host.Outcome State Fault Refusal := Host.Core.run Sys2Proof.core n s

/-- The wire bytes of elements 0 .. n − 1 in index order. -/
def payloadPrefix (order : ByteOrder) (n : Nat) (pix : Nat → Pixel) : List Byte :=
  (List.range n).flatMap fun i => wordBytes order (pixelWord (pix i))

/-- `payload(W, H, PIX)` (42_pixel_streamer.md R152). -/
def payload (order : ByteOrder) (w h : Nat) (pix : Nat → Pixel) : List Byte := payloadPrefix order (w * h) pix

/-- How many chunks `n` bytes make: `⌈n / C⌉` (42_pixel_streamer.md R153, R156). -/
def chunkCount (n c : Nat) : Nat := (n + c - 1) / c

/-- `chunks(s, C)`: chunk k is `s[k×C .. min((k+1)×C, |s|))` (42_pixel_streamer.md R153). -/
def chunks (s : List Byte) (c : Nat) : List (List Byte) :=
  (List.range (chunkCount s.length c)).map fun k => (s.drop (k * c)).take c

/-- The writes an operation issues, in order, when the transport answers every one with `ok`: the frame, and for a
DisplayBitmap the chunks of its payload (42_pixel_streamer.md R154). A data word is no operation. -/
def operationWrites (c : Config) (i : Instr) (pix : Nat → Pixel) : List (List Byte) :=
  match i with
  | .reset => [encode c.byteOrder .reset]
  | .clear => [encode c.byteOrder .clear]
  | .screenOff => [encode c.byteOrder .screenOff]
  | .screenOn => [encode c.byteOrder .screenOn]
  | .setBrightness level => [encode c.byteOrder (.setBrightness level)]
  | .displayBitmap x y w h =>
    encode c.byteOrder (.displayBitmap x y w h) :: chunks (payload c.byteOrder w.toNat h.toNat pix) c.chunkBytes
  | .pixel16 _ _ _ => []

/-- How many transitions a valid operation takes when no write fails (42_pixel_streamer.md R159): acceptance and the frame
write, and for a DisplayBitmap one per pixel, one per chunk and the settle step. -/
def operationSteps (c : Config) (i : Instr) : Nat :=
  match i with
  | .reset => 2
  | .clear => 2
  | .screenOff => 2
  | .screenOn => 2
  | .setBrightness _ => 2
  | .displayBitmap _ _ w h =>
    1 + 1 + w.toNat * h.toNat + chunkCount (2 * w.toNat * h.toNat) c.chunkBytes + 1
  | .pixel16 _ _ _ => 0

end Sys2Proof.Machine
end

