-- ==== Sys2Proof/Safety.lean ====
section
/-! DEFINITION. What counts as a safe state, in the terms the statements use: the invariants of 10_state.md R37 with the
ranges of R24, R25 and R26, what HIST may hold (20_memory.md R55), and how the wire follows from it (10_state.md R32,
20_memory.md R61). -/

namespace Sys2Proof.Safety

open Machine

/-- The block is in the part of an operation that only a DisplayBitmap has (10_state.md R22). -/
def inBlit (s : State) : Prop := s.phase = .stream ∨ s.phase = .flush ∨ s.phase = .settle

/-- The latches of an operation in progress: the zero rectangle, or the level in x, or the rectangle of the pixel buffer
inside the display (10_state.md R24, R25). -/
def latchesFit (s : State) : Prop :=
  match s.cmd with
  | .reset => s.fx = 0 ∧ s.fy = 0 ∧ s.fex = 0 ∧ s.fey = 0
  | .clear => s.fx = 0 ∧ s.fy = 0 ∧ s.fex = 0 ∧ s.fey = 0
  | .screenOff => s.fx = 0 ∧ s.fy = 0 ∧ s.fex = 0 ∧ s.fey = 0
  | .screenOn => s.fx = 0 ∧ s.fy = 0 ∧ s.fex = 0 ∧ s.fey = 0
  | .setBrightness => s.fx.toNat ≤ 255 ∧ s.fy = 0 ∧ s.fex = 0 ∧ s.fey = 0
  | .displayBitmap =>
    1 ≤ s.w.toNat ∧ 1 ≤ s.h.toNat
    ∧ s.fex.toNat + 1 = s.fx.toNat + s.w.toNat ∧ s.fex.toNat < s.cfg.displayWidth
    ∧ s.fey.toNat + 1 = s.fy.toNat + s.h.toNat ∧ s.fey.toNat < s.cfg.displayHeight

/-- The invariants of 10_state.md R37 (a), (b), (c), (d), (f), the ranges of R24 to R26, and `FILL = |BUF|` (R27). -/
structure Inv (s : State) : Prop where
  /-- R11: the rules speak of well-formed configurations only. -/
  cfg_wf : s.cfg.wf = true
  /-- R27. -/
  fill_eq : s.fill = s.buf.length
  /-- R37 (a). -/
  fill_even : s.fill % 2 = 0
  /-- R37 (a). -/
  fill_le : s.fill ≤ s.cfg.chunkBytes
  /-- R37 (b). -/
  fill_zero : s.phase = .idle ∨ s.phase = .frame ∨ s.phase = .settle → s.fill = 0
  /-- R37 (c). -/
  stream_open : s.phase = .stream → s.fill < s.cfg.chunkBytes ∧ s.atEnd = false
  /-- R37 (d). -/
  flush_ready : s.phase = .flush → 0 < s.fill ∧ (s.fill = s.cfg.chunkBytes ∨ s.atEnd = true)
  /-- R37 (f). -/
  blit_cmd : inBlit s → s.cmd = .displayBitmap
  /-- R24, R25. -/
  latches : s.phase ≠ .idle → latchesFit s
  /-- R26. -/
  cursor : inBlit s → s.row.toNat ≤ s.h.toNat ∧ s.col.toNat < s.w.toNat ∧ (s.row = s.h → s.col = 0)

/-- The stream so far is the picture so far: since the operation's frame, HIST holds only full chunks answered `ok`, and
their bytes followed by BUF are exactly the converted elements before the cursor, in row-major order
(42_pixel_streamer.md R138, R139; the count of 10_state.md R37 (e) is the length of this equation). -/
def StreamFaithful (s : State) : Prop :=
  s.phase = .stream ∨ s.phase = .flush →
    ∃ (before written : List Write) (pix : Nat → Pixel),
      s.hist = before ++ { bytes := s.frameBytes, outcome := .ok } :: written
      ∧ (∀ v ∈ written, v.outcome = .ok ∧ v.bytes.length = s.cfg.chunkBytes)
      ∧ (∀ i < s.cursorIndex, memRead s.pixels i = some (pix i))
      ∧ written.flatMap (·.bytes) ++ s.buf = payloadPrefix s.cfg.byteOrder s.cursorIndex pix

/-- The contents a write may have: a whole frame of 6 bytes, or a non-empty chunk of an even number of bytes, at most
CHUNK_BYTES (20_memory.md R55, 10_state.md R31). -/
def writeFits (c : Config) (v : Write) : Prop :=
  v.bytes.length = 6 ∨ (2 ≤ v.bytes.length ∧ v.bytes.length ≤ c.chunkBytes ∧ v.bytes.length % 2 = 0)

/-- Bytes that a history may have delivered: all of every write answered `ok`, a prefix of every write answered `fail`,
in order (10_state.md R32, 20_memory.md R61). -/
def Delivers : List Write → List Byte → Prop
  | [], d => d = []
  | v :: rest, d =>
    ∃ first later, d = first ++ later ∧ (if v.outcome = .ok then first = v.bytes else first <+: v.bytes)
      ∧ Delivers rest later

/-- What has reached the wire is what was there before the last block reset, then what HIST delivered. -/
def WireFollowsHist (s : State) : Prop := ∃ before since, s.wire = before ++ since ∧ Delivers s.hist since

/-- Every pixel buffer, lent or about to be, is in canonical form (20_memory.md R51). -/
def BuffersCanonical (s : State) : Prop :=
  s.pixels.wf = true ∧ ∀ p ∈ s.requests, p.pixels.wf = true

/-- One write answered `ok`, seen from outside: the answer is used up, HIST and the wire get all of the bytes
(10_state.md R31, R32; 20_memory.md R61). -/
def sentOk (bytes : List Byte) (more : List Answer) (s : State) : State :=
  { s with
    answers := more
    hist := s.hist ++ [{ bytes := bytes, outcome := .ok }]
    wire := s.wire ++ bytes }

/-- One write answered `fail` ends its operation with IoError: HIST gets the entry, the wire a prefix of the bytes that
nothing constrains, BUF is lost, RESULT is IoError, the phase IDLE (60_exceptions.md R189, 20_memory.md R61). -/
def sentFail (bytes : List Byte) (more : List Answer) (s : State) : State :=
  { s with
    phase := .idle
    result := .ioError
    results := s.results ++ [.ioError]
    buf := []
    fill := 0
    answers := more
    hist := s.hist ++ [{ bytes := bytes, outcome := .fail }]
    wire := s.wire ++ bytes.take (Config.failedPrefix s.draws)
    draws := s.draws + 1 }

/-- An operation reports `OK` (10_state.md R28). -/
def reportOk (s : State) : State := { s with phase := .idle, result := .ok, results := s.results ++ [.ok] }

/-- An operation reports InvalidArgument: RESULT, and nothing else of the block (60_exceptions.md R188). -/
def reportInvalid (s : State) : State :=
  { s with result := .invalidArgument, results := s.results ++ [.invalidArgument] }

/-- The element the next *pixel* transition reads is in the lent buffer (70_reset_and_hazards.md R213 d). -/
def PixelSupplied (s : State) : Prop := s.phase = .stream → (memRead s.pixels s.cursorIndex).isSome = true

end Sys2Proof.Safety
end

