-- ==== Sys2Proof/Certificates/Slice0/Obligations.lean ====
section
/-! DEFINITION. The statements for the provers, one `def Obligations.<Name> : Prop` each. They follow the spec file by
file: the wire formats, the converter, the encoder, the commands transition by transition, the errors, reset, the
invariants, and whole operations.

Where a statement names `requests`, `answers`, `results`, `wire`, `draws` or `rst`, it speaks of the model's own form of
the block's inputs and of what is observed of it (entries 3, 4, 5, 7 and 16). -/

open Sys2Proof Sys2Proof.Machine Sys2Proof.Safety

/-! The wire formats (30_encoding.md, 41_frame_encoder.md). -/

/-- Decoding the wire bytes of a well-formed instruction gives it back, whatever follows it (30_encoding.md R98, which
inverts R81, R86, R87, R88 and R114). -/
def Obligations.DecodeInvertsEncode : Prop :=
  ∀ (order : ByteOrder) (i : Instr) (rest : List Byte), i.wellFormed = true →
    decode order (slotOf i) (encode order i ++ rest) = .ok (i, rest)

/-- What decodes is the wire bytes of the instruction it decodes to, and that instruction is well formed: no two byte
sequences stand for one instruction (30_encoding.md R98, 41_frame_encoder.md R126). It holds because the decoder refuses
the frames of 30_encoding.md R94 by name, which is the model's choice (DESIGN CHOICE, entry 12): R98 itself reads fields
from any six bytes without these checks. -/
def Obligations.EncodeInvertsDecode : Prop :=
  ∀ (order : ByteOrder) (slot : Slot) (bytes : List Byte) (i : Instr) (rest : List Byte),
    decode order slot bytes = .ok (i, rest) →
      i.wellFormed = true ∧ slotOf i = slot ∧ bytes = encode order i ++ rest

/-- The closed form of a frame: six bytes of one 48-bit number, most significant first (41_frame_encoder.md R123,
30_encoding.md R82). -/
def Obligations.FrameIsBigEndianNumber : Prop :=
  ∀ (cmd : Byte) (x y ex ey : Coord),
    (frameNumber cmd x y ex ey).toNat
        = x.toNat <<< 38 ||| y.toNat <<< 28 ||| ex.toNat <<< 18 ||| ey.toNat <<< 8 ||| cmd.toNat
    ∧ (encodeFrame cmd x y ex ey).length = 6
    ∧ ∀ k < 6, (encodeFrame cmd x y ex ey)[k]? = some ((frameNumber cmd x y ex ey).extractLsb' (40 - 8 * k) 8)

/-- Distinct operands give distinct frames, every six bytes are the frame of one operand tuple, and the inverse is the
field extraction of 30_encoding.md R98 (41_frame_encoder.md R126). -/
def Obligations.FramesAndOperandsCorrespond : Prop :=
  (∀ (c c' : Byte) (x y ex ey x' y' ex' ey' : Coord),
    encodeFrame c x y ex ey = encodeFrame c' x' y' ex' ey' → c = c' ∧ x = x' ∧ y = y' ∧ ex = ex' ∧ ey = ey')
  ∧ ∀ b0 b1 b2 b3 b4 b5 : Byte,
    encodeFrame b5 (frameX b0 b1) (frameY b1 b2) (frameEx b2 b3) (frameEy b3 b4) = [b0, b1, b2, b3, b4, b5]

/-- The bare encoder has a value exactly on the domain of 41_frame_encoder.md R121, where it is the frame and every value
of the formula is a byte. -/
def Obligations.EncoderDomainIsExact : Prop :=
  ∀ cmd x y ex ey : Nat,
    ((cmd ≤ 255 ∧ x ≤ 1023 ∧ y ≤ 1023 ∧ ex ≤ 1023 ∧ ey ≤ 1023) →
      (∀ v ∈ frameFormula cmd x y ex ey, v ≤ 255)
      ∧ encodeChecked cmd x y ex ey
        = some (encodeFrame (BitVec.ofNat 8 cmd) (BitVec.ofNat 10 x) (BitVec.ofNat 10 y) (BitVec.ofNat 10 ex)
            (BitVec.ofNat 10 ey)))
    ∧ (¬ (cmd ≤ 255 ∧ x ≤ 1023 ∧ y ≤ 1023 ∧ ex ≤ 1023 ∧ ey ≤ 1023) → encodeChecked cmd x y ex ey = none)

/-- A few words written out from the spec's encodings decode to the instructions they stand for (30_encoding.md R85, R86,
R87, R88, R89; 95_test_vectors.md V20, V23, V39, V19n, V13d). -/
def Obligations.KnownWordsDecode : Prop :=
  decode .le .command [0x00, 0x00, 0x00, 0x00, 0x00, 0x65] = .ok (.reset, [])
  ∧ decode .le .command [0x00, 0x00, 0x00, 0x00, 0x00, 0x6D] = .ok (.screenOn, [])
  ∧ decode .le .command [0x3F, 0xC0, 0x00, 0x00, 0x00, 0x6E] = .ok (.setBrightness 255, [])
  ∧ decode .le .command [0x02, 0x82, 0x82, 0x54, 0x45, 0xC5] = .ok (.displayBitmap 10 40 140 30, [])
  ∧ decode .le .dataWord [0x26, 0xCB] = .ok (.pixel16 25 25 6, [])
  ∧ decode .be .dataWord [0xCB, 0x26] = .ok (.pixel16 25 25 6, [])

/-- A whole operation's wire stream decodes to the operation followed by the data words of its pixels, one each, in
row-major order (30_encoding.md R90, R91, R98). -/
def Obligations.OperationStreamDecodes : Prop :=
  ∀ (c : Config) (i : Instr) (pix : Nat → Pixel), c.wf = true → valid c i = true →
    decodeStream c.byteOrder (operationWrites c i pix).flatten
      = some (i :: (List.range (payloadWords i)).map fun n => instrOfWord (pixelWord (pix n)))

/-! The ColorConverter (40_color_converter.md). -/

/-- The converter lane by lane: `v[15:11] = r[7:3]`, `v[10:5] = g[7:2]`, `v[4:0] = b[7:3]`, and its `|` may be `+`
(40_color_converter.md R111). -/
def Obligations.ConverterWorksLaneByLane : Prop :=
  ∀ r g b : Byte,
    (toRGB565 r g b).extractLsb' 11 5 = r.extractLsb' 3 5
    ∧ (toRGB565 r g b).extractLsb' 5 6 = g.extractLsb' 2 6
    ∧ (toRGB565 r g b).extractLsb' 0 5 = b.extractLsb' 3 5
    ∧ toRGB565 r g b = r.extractLsb' 3 5 ++ g.extractLsb' 2 6 ++ b.extractLsb' 3 5
    ∧ (toRGB565 r g b).toNat = (r.toNat / 8) * 2048 + (g.toNat / 4) * 32 + b.toNat / 8

/-- Each lane is a non-decreasing function of its channel, and exactly 256 pixels convert to each word
(40_color_converter.md R112). -/
def Obligations.ConverterTruncates : Prop :=
  (∀ r r' g g' b b' : Byte,
    (r ≤ r' → (toRGB565 r g b).extractLsb' 11 5 ≤ (toRGB565 r' g' b').extractLsb' 11 5)
    ∧ (g ≤ g' → (toRGB565 r g b).extractLsb' 5 6 ≤ (toRGB565 r' g' b').extractLsb' 5 6)
    ∧ (b ≤ b' → (toRGB565 r g b).extractLsb' 0 5 ≤ (toRGB565 r' g' b').extractLsb' 0 5))
  ∧ ∀ v : PixelWord, ∃ l : List Pixel, l.Nodup ∧ l.length = 256 ∧ ∀ p : Pixel, p ∈ l ↔ pixelWord p = v

/-- The two bytes of a word in either order, each order read back, and a word of two equal bytes the same in both
(40_color_converter.md R114). -/
def Obligations.WordBytesFollowTheOrder : Prop :=
  ∀ v : PixelWord,
    wordBytes .le v = [v.extractLsb' 0 8, v.extractLsb' 8 8]
    ∧ wordBytes .be v = [v.extractLsb' 8 8, v.extractLsb' 0 8]
    ∧ (v.extractLsb' 0 8 = v.extractLsb' 8 8 → wordBytes .le v = wordBytes .be v)
    ∧ ∀ order b0 b1, wordBytes order v = [b0, b1] ↔ wordOfBytes order b0 b1 = v

/-! The commands, phase by phase (43_display_commands.md, 42_pixel_streamer.md). -/

/-- In IDLE each control command is accepted: its opcode and the zero rectangle are latched, the phase is FRAME, and
nothing else changes, in particular no write is issued and RESULT stays (43_display_commands.md R160 to R163,
42_pixel_streamer.md R142). -/
def Obligations.ControlCommandsAreAccepted : Prop :=
  ∀ s : State, s.cfg.wf = true → s.phase = .idle →
    exec .reset s = .next { s with phase := .frame, cmd := .reset, fx := 0, fy := 0, fex := 0, fey := 0 }
    ∧ exec .clear s = .next { s with phase := .frame, cmd := .clear, fx := 0, fy := 0, fex := 0, fey := 0 }
    ∧ exec .screenOff s = .next { s with phase := .frame, cmd := .screenOff, fx := 0, fy := 0, fex := 0, fey := 0 }
    ∧ exec .screenOn s = .next { s with phase := .frame, cmd := .screenOn, fx := 0, fy := 0, fex := 0, fey := 0 }

/-- In FRAME each control command sends its six bytes in one write and, when the transport answers `ok`, reports OK; no
settle delay, and nothing else changes (43_display_commands.md R160 to R163, 42_pixel_streamer.md R143). -/
def Obligations.ControlCommandsSendTheirFrame : Prop :=
  ∀ (s : State) (more : List Answer), s.cfg.wf = true → s.phase = .frame → s.answers = .ok :: more →
    s.fx = 0 → s.fy = 0 → s.fex = 0 → s.fey = 0 →
    (s.cmd = .reset → exec .reset s = .next (reportOk (sentOk [0x00, 0x00, 0x00, 0x00, 0x00, 0x65] more s)))
    ∧ (s.cmd = .clear → exec .clear s = .next (reportOk (sentOk [0x00, 0x00, 0x00, 0x00, 0x00, 0x66] more s)))
    ∧ (s.cmd = .screenOff → exec .screenOff s = .next (reportOk (sentOk [0x00, 0x00, 0x00, 0x00, 0x00, 0x6C] more s)))
    ∧ (s.cmd = .screenOn → exec .screenOn s = .next (reportOk (sentOk [0x00, 0x00, 0x00, 0x00, 0x00, 0x6D] more s)))

/-- In FRAME, when the transport answers `fail`, each control command ends in IoError with its six bytes in HIST
(43_display_commands.md R160 to R163, 42_pixel_streamer.md R145, 60_exceptions.md R189). -/
def Obligations.ControlCommandsFailWithIoError : Prop :=
  ∀ (s : State) (more : List Answer), s.cfg.wf = true → s.phase = .frame → s.answers = .fail :: more →
    s.fx = 0 → s.fy = 0 → s.fex = 0 → s.fey = 0 →
    (s.cmd = .reset → exec .reset s = .next (sentFail [0x00, 0x00, 0x00, 0x00, 0x00, 0x65] more s))
    ∧ (s.cmd = .clear → exec .clear s = .next (sentFail [0x00, 0x00, 0x00, 0x00, 0x00, 0x66] more s))
    ∧ (s.cmd = .screenOff → exec .screenOff s = .next (sentFail [0x00, 0x00, 0x00, 0x00, 0x00, 0x6C] more s))
    ∧ (s.cmd = .screenOn → exec .screenOn s = .next (sentFail [0x00, 0x00, 0x00, 0x00, 0x00, 0x6D] more s))

/-- In IDLE SetBrightness is accepted exactly for a level of 0 .. 255, which goes into the x latch; any other level is
InvalidArgument and nothing else changes (43_display_commands.md R164, 60_exceptions.md R188). -/
def Obligations.BrightnessIsAcceptedInRange : Prop :=
  ∀ (s : State) (level : Int), s.cfg.wf = true → s.phase = .idle →
    (0 ≤ level ∧ level ≤ 255 →
      ∃ x : Coord, (x.toNat : Int) = level ∧ exec (.setBrightness level) s
        = .next { s with phase := .frame, cmd := .setBrightness, fx := x, fy := 0, fex := 0, fey := 0 })
    ∧ (¬ (0 ≤ level ∧ level ≤ 255) → exec (.setBrightness level) s = .next (reportInvalid s))

/-- In FRAME SetBrightness sends `[level >> 2, (level & 3) << 6, 0, 0, 0, 0x6E]` in one write and reports OK when the
answer is `ok`, IoError when it is `fail` (43_display_commands.md R164, 30_encoding.md R87). -/
def Obligations.BrightnessSendsItsLevel : Prop :=
  ∀ (s : State) (level : Nat) (more : List Answer), s.cfg.wf = true → s.phase = .frame → s.cmd = .setBrightness →
    level ≤ 255 → s.fx.toNat = level → s.fy = 0 → s.fex = 0 → s.fey = 0 →
    let bytes : List Byte := [BitVec.ofNat 8 (level / 4), BitVec.ofNat 8 (level % 4 * 64), 0x00, 0x00, 0x00, 0x6E]
    (s.answers = .ok :: more → exec (.setBrightness level) s = .next (reportOk (sentOk bytes more s)))
    ∧ (s.answers = .fail :: more → exec (.setBrightness level) s = .next (sentFail bytes more s))

/-- In IDLE DisplayBitmap is accepted exactly when conditions (a) to (f) hold: the latches hold x, y, x + W − 1,
y + H − 1, W and H untruncated; otherwise InvalidArgument and nothing else changes (43_display_commands.md R165,
10_state.md R24, R25). -/
def Obligations.BlitIsAcceptedInsideTheDisplay : Prop :=
  ∀ (s : State) (x y w h : Int), s.cfg.wf = true → s.phase = .idle →
    (0 < w ∧ 0 < h ∧ 0 ≤ x ∧ 0 ≤ y ∧ x + w - 1 < s.cfg.displayWidth ∧ y + h - 1 < s.cfg.displayHeight →
      ∃ (lx ly lex ley : Coord) (lw lh : Extent),
        (lx.toNat : Int) = x ∧ (ly.toNat : Int) = y ∧ (lex.toNat : Int) = x + w - 1 ∧ (ley.toNat : Int) = y + h - 1
        ∧ (lw.toNat : Int) = w ∧ (lh.toNat : Int) = h
        ∧ exec (.displayBitmap x y w h) s
          = .next { s with
              phase := .frame, cmd := .displayBitmap, fx := lx, fy := ly, fex := lex, fey := ley, w := lw, h := lh })
    ∧ (¬ (0 < w ∧ 0 < h ∧ 0 ≤ x ∧ 0 ≤ y ∧ x + w - 1 < s.cfg.displayWidth ∧ y + h - 1 < s.cfg.displayHeight) →
      exec (.displayBitmap x y w h) s = .next (reportInvalid s))

/-- In FRAME DisplayBitmap sends its frame in one write: on `ok` the stream begins at the first pixel with an empty
buffer, on `fail` the operation ends in IoError (42_pixel_streamer.md R144, R145). -/
def Obligations.BlitFrameBeginsTheStream : Prop :=
  ∀ (s : State) (more : List Answer), s.cfg.wf = true → s.phase = .frame → s.cmd = .displayBitmap →
    let i : Instr := .displayBitmap s.fx.toNat s.fy.toNat s.w.toNat s.h.toNat
    let frame := bytesOfNumber (frameNumber 0xC5 s.fx s.fy s.fex s.fey)
    (s.answers = .ok :: more →
      exec i s = .next { sentOk frame more s with phase := .stream, row := 0, col := 0, buf := [], fill := 0 })
    ∧ (s.answers = .fail :: more → exec i s = .next (sentFail frame more s))

/-- In STREAM a data word is appended to BUF in the configured byte order, the cursor advances by one pixel in row-major
order, and the phase is FLUSH exactly when the chunk is full or the cursor at the end (42_pixel_streamer.md R146,
10_state.md R26, R27). R146 names no PIXEL16 instruction: that executing PIXEL16 has the effect of the *pixel*
transition is the model's reading (DEDUCED, entry 11). -/
def Obligations.DataWordIsAppended : Prop :=
  ∀ (s : State) (r : BitVec 5) (g : BitVec 6) (b : BitVec 5), s.cfg.wf = true → s.phase = .stream →
    ∃ t : State, exec (.pixel16 r g b) s = .next t
      ∧ t.buf = s.buf ++ wordBytes s.cfg.byteOrder (r ++ g ++ b)
      ∧ t.fill = s.fill + 2
      ∧ (s.col.toNat + 1 < s.w.toNat → t.col = s.col + 1 ∧ t.row = s.row)
      ∧ (¬ s.col.toNat + 1 < s.w.toNat → t.col = 0 ∧ t.row = s.row + 1)
      ∧ (t.phase = .flush ↔ t.fill = s.cfg.chunkBytes ∨ t.row = s.h)
      ∧ (t.phase = .stream ↔ ¬ (t.fill = s.cfg.chunkBytes ∨ t.row = s.h))
      ∧ { t with phase := s.phase, buf := s.buf, fill := s.fill, row := s.row, col := s.col } = s

/-- In STREAM DisplayBitmap reads the element at index `ROW × W + COL`, converts it, and does what the data word of that
pixel does; so does the step, whatever CMD holds (42_pixel_streamer.md R146, R138, 40_color_converter.md R115). That the
data word PIXEL16 has the meaning of the *pixel* transition is the model's reading (DEDUCED, entry 11), and so is the
step's disregard of CMD, which no run shows (DESIGN CHOICE, entry 22). An element that was not lent stops it (the model's
choice, entry 8). -/
def Obligations.PixelIsReadConvertedAndAppended : Prop :=
  ∀ s : State, s.cfg.wf = true → s.phase = .stream →
    (∀ p : Pixel, memRead s.pixels (s.row.toNat * s.w.toNat + s.col.toNat) = some p →
      (s.rst = false →
        step s = exec (.pixel16 (p.r.extractLsb' 3 5) (p.g.extractLsb' 2 6) (p.b.extractLsb' 3 5)) s)
      ∧ (s.cmd = .displayBitmap →
        exec (.displayBitmap s.fx.toNat s.fy.toNat s.w.toNat s.h.toNat) s
          = exec (.pixel16 (p.r.extractLsb' 3 5) (p.g.extractLsb' 2 6) (p.b.extractLsb' 3 5)) s))
    ∧ (memRead s.pixels (s.row.toNat * s.w.toNat + s.col.toNat) = none →
      (s.rst = false → step s = .fault .pixelNotSupplied)
      ∧ (s.cmd = .displayBitmap →
        exec (.displayBitmap s.fx.toNat s.fy.toNat s.w.toNat s.h.toNat) s = .fault .pixelNotSupplied))

/-- In FLUSH the whole of BUF is one write. On `ok` the buffer is emptied and the stream goes on, or settles when the
cursor is at the end; on `fail` the operation ends in IoError (42_pixel_streamer.md R147, R148, R149). -/
def Obligations.ChunkIsFlushed : Prop :=
  ∀ (s : State) (more : List Answer), s.cfg.wf = true → s.phase = .flush →
    let i : Instr := .displayBitmap s.fx.toNat s.fy.toNat s.w.toNat s.h.toNat
    let goesOn : State := { sentOk s.buf more s with phase := .stream, buf := [], fill := 0 }
    let settles : State := { sentOk s.buf more s with phase := .settle, buf := [], fill := 0 }
    (s.answers = .ok :: more → s.row ≠ s.h →
      (s.cmd = .displayBitmap → exec i s = .next goesOn) ∧ (s.rst = false → step s = .next goesOn))
    ∧ (s.answers = .ok :: more → s.row = s.h →
      (s.cmd = .displayBitmap → exec i s = .next settles) ∧ (s.rst = false → step s = .next settles))
    ∧ (s.answers = .fail :: more →
      (s.cmd = .displayBitmap → exec i s = .next (sentFail s.buf more s))
      ∧ (s.rst = false → step s = .next (sentFail s.buf more s)))

/-- In SETTLE the next step reports OK; no write is issued and nothing else changes (42_pixel_streamer.md R150). That the
result also joins the list of results is the model's observation (entry 16). -/
def Obligations.SettleReportsOk : Prop :=
  ∀ s : State, s.cfg.wf = true → s.phase = .settle →
    (s.rst = false → step s = .next (reportOk s))
    ∧ (s.cmd = .displayBitmap →
      exec (.displayBitmap s.fx.toNat s.fy.toNat s.w.toNat s.h.toNat) s = .next (reportOk s))

/-- A command that is not the operation in progress has no effect on a busy block, and a data word none outside STREAM
(42_pixel_streamer.md R142, R159). That `exec` then answers the unchanged state is the model's reading (entries 10 and
11). -/
def Obligations.NothingElseIsTaken : Prop :=
  ∀ (i : Instr) (s : State), s.cfg.wf = true →
    (slotOf i = .command → s.phase ≠ .idle → s.latched ≠ i → exec i s = .next s)
    ∧ (slotOf i = .dataWord → s.phase ≠ .stream → exec i s = .next s)

/-- A configuration is well formed exactly under the conditions of 00_scope.md R11, and under any other every step and
every instruction is refused. That the refusal comes first in a step, an asserted reset input included, is the model's
reading (DEDUCED, entry 2). -/
def Obligations.IllFormedConfigIsRefused : Prop :=
  ∀ s : State,
    (s.cfg.wf = true ↔
      1 ≤ s.cfg.displayWidth ∧ s.cfg.displayWidth ≤ 1024 ∧ 1 ≤ s.cfg.displayHeight ∧ s.cfg.displayHeight ≤ 1024
      ∧ 1 ≤ s.cfg.chunkMult ∧ (∃ n, s.cfg.displayWidth * s.cfg.chunkMult = 2 * n) ∧ 0 ≤ s.cfg.settleDelayMs
      ∧ 12 ≤ s.cfg.opw)
    ∧ (s.cfg.wf = false →
      step s = .refused .configIllFormed ∧ ∀ i : Instr, exec i s = .refused .configIllFormed)

/-! The step (00_scope.md R7, 42_pixel_streamer.md Part 2). -/

/-- A step runs the instruction at the sequencer: in IDLE the operation the request on the port selects, on the state
with that request and its pixel buffer taken from the host; in FRAME, FLUSH and SETTLE the operation the latches hold
(10_state.md R22, R29, 42_pixel_streamer.md R142). In IDLE with no request listed the step answers the unchanged state.
That idle step, and that the request leaves the list of requests, are the model's choice (DESIGN CHOICE, entry 3); that
its buffer stands on the pixel port, whatever the command, is too (DESIGN CHOICE, entry 9). -/
def Obligations.StepRunsTheInstruction : Prop :=
  ∀ s : State, s.cfg.wf = true → s.rst = false →
    (∀ (p : Presented) (rest : List Presented) (i : Instr), s.phase = .idle → s.requests = p :: rest →
      decodeRequest s.cfg p.request = some i → step s = exec i { s with requests := rest, pixels := p.pixels })
    ∧ (s.phase = .idle → s.requests = [] → step s = .next s)
    ∧ (s.phase = .frame ∨ s.phase = .flush ∨ s.phase = .settle → step s = exec s.latched s)

/-- What a request selects: operands a command does not use are ignored, and an operand that OPW signed bits hold is read
as itself (10_state.md R29, 30_encoding.md R95, 43_display_commands.md R160 to R165). -/
def Obligations.RequestsSelectOperations : Prop :=
  ∀ (c : Config) (x y w h : Int), 1 ≤ c.opw →
    -2 ^ (c.opw - 1) ≤ x → x < 2 ^ (c.opw - 1) → -2 ^ (c.opw - 1) ≤ y → y < 2 ^ (c.opw - 1) →
    -2 ^ (c.opw - 1) ≤ w → w < 2 ^ (c.opw - 1) → -2 ^ (c.opw - 1) ≤ h → h < 2 ^ (c.opw - 1) →
    decodeRequest c { cmd := 101, x := x, y := y, w := w, h := h } = some .reset
    ∧ decodeRequest c { cmd := 102, x := x, y := y, w := w, h := h } = some .clear
    ∧ decodeRequest c { cmd := 108, x := x, y := y, w := w, h := h } = some .screenOff
    ∧ decodeRequest c { cmd := 109, x := x, y := y, w := w, h := h } = some .screenOn
    ∧ decodeRequest c { cmd := 110, x := x, y := y, w := w, h := h } = some (.setBrightness x)
    ∧ decodeRequest c { cmd := 197, x := x, y := y, w := w, h := h } = some (.displayBitmap x y w h)

/-- A request whose `req_cmd` is none of the six opcodes is rejected with InvalidArgument, whatever its other fields hold:
no write, no latch, RESULT alone (43_display_commands.md R167, 42_pixel_streamer.md R151). That the request leaves the
list of requests with its buffer on the pixel port, and that the result joins the list of results, are the model's form of
the ports and its observation (entries 3, 9 and 16). -/
def Obligations.UnknownCommandIsRejected : Prop :=
  ∀ (s : State) (p : Presented) (rest : List Presented), s.cfg.wf = true → s.rst = false → s.phase = .idle →
    s.requests = p :: rest → p.request.cmd ∉ [101, 102, 108, 109, 110, 197] →
    step s = .next (reportInvalid { s with requests := rest, pixels := p.pixels })

/-- A write that is not answered is waited for: nothing lets the block past it (70_reset_and_hazards.md R224). That the
waiting step answers the unchanged state is the model's reading (entry 4). -/
def Obligations.UnansweredWriteWaits : Prop :=
  ∀ s : State, s.cfg.wf = true → s.rst = false → s.phase = .frame ∨ s.phase = .flush → s.answers = [] →
    step s = .next s

/-- What the host reads of STATUS: BUSY is 1 exactly when the phase is not IDLE, RESULT is 0, 1 or 2 and never 3
(10_state.md R28, 60_exceptions.md R183). -/
def Obligations.StatusReadsPhaseAndResult : Prop :=
  ∀ s : State,
    ((readStatus s).busy = 1 ↔ s.phase ≠ .idle)
    ∧ ((readStatus s).result = 0 ↔ s.result = .ok)
    ∧ ((readStatus s).result = 1 ↔ s.result = .invalidArgument)
    ∧ ((readStatus s).result = 2 ↔ s.result = .ioError)
    ∧ (readStatus s).result ≠ 3

/-! Reset (10_state.md R36, 70_reset_and_hazards.md). -/

/-- After reset the block is IDLE and not busy, RESULT is 0, FILL 0, BUF and HIST empty (10_state.md R36). -/
def Obligations.ResetLeavesTheBlockIdle : Prop :=
  State.reset.phase = .idle ∧ readStatus State.reset = { busy := 0, result := 0 } ∧ State.reset.fill = 0
  ∧ State.reset.buf = [] ∧ State.reset.hist = []

/-- Block reset in any phase: the block is IDLE with RESULT 0, FILL 0, BUF and HIST empty, no result is reported for an
operation abandoned and nothing more is written; of a write in progress some prefix has reached the wire; the
configuration and the host's ports are as they were (70_reset_and_hazards.md R210, R212). Which results and answers
stand on is the model's choice (entry 7). -/
def Obligations.BlockResetAbandonsTheOperation : Prop :=
  ∀ s : State, s.cfg.wf = true → s.rst = true →
    ∃ (t : State) (part : List Byte), step s = .next t
      ∧ t.phase = .idle ∧ t.result = .ok ∧ t.fill = 0 ∧ t.buf = [] ∧ t.hist = [] ∧ t.results = [] ∧ t.rst = false
      ∧ t.cfg = s.cfg ∧ t.requests = s.requests ∧ t.pixels = s.pixels ∧ t.answers = s.answers
      ∧ t.wire = s.wire ++ part
      ∧ (s.phase = .frame → part <+: bytesOfNumber (frameNumber (opcode s.cmd) s.fx s.fy s.fex s.fey))
      ∧ (s.phase = .flush → part <+: s.buf)
      ∧ (s.phase = .idle ∨ s.phase = .stream ∨ s.phase = .settle → part = [])

/-! Invariants (10_state.md R37). -/

/-- The state after reset meets every invariant stated below. Its configuration is the model's choice (entry 1). -/
def Obligations.ResetMeetsTheInvariants : Prop :=
  Inv State.reset ∧ StreamFaithful State.reset ∧ WireFollowsHist State.reset ∧ BuffersCanonical State.reset
  ∧ ∀ v ∈ State.reset.hist, writeFits State.reset.cfg v

/-- Every step keeps the invariants of 10_state.md R37 (a) to (d) and (f) with the ranges of R24 to R26. -/
def Obligations.StepKeepsInv : Prop :=
  ∀ s t : State, Inv s → step s = .next t → Inv t

/-- Every step keeps the stream faithful: what has been written since the frame, with BUF, is exactly the conversion of the
elements before the cursor, in order, in full chunks (42_pixel_streamer.md R138, R139; 10_state.md R37 (e)). -/
def Obligations.StepKeepsStreamFaithful : Prop :=
  ∀ s t : State, Inv s → StreamFaithful s → step s = .next t → StreamFaithful t

/-- Every step keeps the wire what HIST delivered: all bytes of writes answered `ok`, prefixes of those answered `fail`, in
order (10_state.md R32, 20_memory.md R61, R66). -/
def Obligations.StepKeepsWireFollowingHist : Prop :=
  ∀ s t : State, WireFollowsHist s → step s = .next t → WireFollowsHist t

/-- Every write is a whole frame of 6 bytes or a non-empty chunk of an even number of bytes, at most CHUNK_BYTES: never an
empty write, never half a pixel (20_memory.md R55, R59, 10_state.md R31). -/
def Obligations.StepKeepsWriteSizes : Prop :=
  ∀ s t : State, Inv s → (∀ v ∈ s.hist, writeFits s.cfg v) → step s = .next t → ∀ v ∈ t.hist, writeFits t.cfg v

/-- No step changes the configuration (10_state.md R34), and every step keeps the pixel buffers in canonical form. The
canonical form is the model's own, no rule's (DESIGN CHOICE, entry 8). -/
def Obligations.StepKeepsConfigAndBuffers : Prop :=
  ∀ s t : State, step s = .next t → t.cfg = s.cfg ∧ (BuffersCanonical s → BuffersCanonical t)

/-- While an operation runs, its latches and its pixel buffer stay as they were and no request is taken: they change in
IDLE only, or by block reset (10_state.md R23, R24, R30, 20_memory.md R70, 42_pixel_streamer.md R158). -/
def Obligations.BusyBlockHoldsItsOperands : Prop :=
  ∀ s t : State, step s = .next t → s.rst = false → s.phase ≠ .idle →
    t.cmd = s.cmd ∧ t.fx = s.fx ∧ t.fy = s.fy ∧ t.fex = s.fex ∧ t.fey = s.fey ∧ t.w = s.w ∧ t.h = s.h
    ∧ t.pixels = s.pixels ∧ t.requests = s.requests

/-- A step issues at most one write, only in FRAME (the frame) or FLUSH (the whole buffer), and uses one answer for it;
HIST only grows (42_pixel_streamer.md R159, 20_memory.md R66). -/
def Obligations.StepIssuesAtMostOneWrite : Prop :=
  ∀ s t : State, step s = .next t → s.rst = false →
    (t.hist = s.hist ∧ t.wire = s.wire ∧ t.answers = s.answers ∧ t.draws = s.draws)
    ∨ ∃ (bytes : List Byte) (a : Answer),
        t.hist = s.hist ++ [{ bytes := bytes, outcome := a }] ∧ s.answers = a :: t.answers
        ∧ ((s.phase = .frame ∧ bytes = s.frameBytes) ∨ (s.phase = .flush ∧ bytes = s.buf))

/-- Results are reported one at a time and at the moment they arise: InvalidArgument in IDLE with nothing written, IoError
exactly with a write that failed, OK after the frame of a control command or after the settle delay
(60_exceptions.md R180, R182, R186; 10_state.md R28). -/
def Obligations.ResultsAriseWhereTheRulesSay : Prop :=
  ∀ s t : State, step s = .next t → s.rst = false →
    (t.results = s.results ∧ t.result = s.result
      ∧ ∀ v ∈ t.hist.drop s.hist.length, v.outcome = .ok)
    ∨ (t.phase = .idle ∧ t.results = s.results ++ [t.result]
      ∧ (t.result = .invalidArgument → s.phase = .idle ∧ t.hist = s.hist)
      ∧ (t.result = .ioError → (s.phase = .frame ∨ s.phase = .flush)
          ∧ ∃ b, t.hist = s.hist ++ [{ bytes := b, outcome := .fail }])
      ∧ (t.result = .ok → (s.phase = .settle ∧ t.hist = s.hist)
          ∨ (s.phase = .frame ∧ s.cmd ≠ .displayBitmap
            ∧ t.hist = s.hist ++ [{ bytes := s.frameBytes, outcome := .ok }])))

/-- The phases follow each other only as R142 to R151 say: no operation leaves STREAM, FLUSH or SETTLE for a host's sake,
SETTLE comes only after the last chunk was answered `ok` (42_pixel_streamer.md R159, R141, R148). -/
def Obligations.PhasesFollowTheTransitions : Prop :=
  ∀ s t : State, step s = .next t → s.rst = false →
    (s.phase = .idle → t.phase = .idle ∨ t.phase = .frame)
    ∧ (s.phase = .frame → t.phase = .idle ∨ (t.phase = .stream ∧ s.cmd = .displayBitmap)
        ∨ (t.phase = .frame ∧ s.answers = []))
    ∧ (s.phase = .stream → t.phase = .stream ∨ t.phase = .flush)
    ∧ (s.phase = .flush →
        (t.phase = .stream ∧ s.row ≠ s.h ∧ s.answers.head? = some .ok)
        ∨ (t.phase = .settle ∧ s.row = s.h ∧ s.answers.head? = some .ok)
        ∨ (t.phase = .idle ∧ s.answers.head? = some .fail) ∨ (t.phase = .flush ∧ s.answers = []))
    ∧ (s.phase = .settle → t.phase = .idle)

/-- Under the invariants a step always answers a next state, but for the read of an element that the host did not lend
(70_reset_and_hazards.md R213 d; the stop itself is the model's choice, entry 8). -/
def Obligations.StepNeverStopsWhenPixelsAreLent : Prop :=
  ∀ s : State, Inv s →
    (s.rst = true ∨ PixelSupplied s → ∃ t, step s = .next t)
    ∧ (¬ (s.rst = true ∨ PixelSupplied s) → step s = .fault .pixelNotSupplied)

/-- The frame about to be sent is always the frame of a valid, well-formed operation, the one the latches hold: an opcode
of the six, and no field the block never emits (30_encoding.md R93, R94). -/
def Obligations.OnlyValidFramesAreSent : Prop :=
  ∀ s : State, Inv s → s.phase ≠ .idle →
    valid s.cfg s.latched = true ∧ s.latched.wellFormed = true ∧ s.frameBytes = encode s.cfg.byteOrder s.latched

/-- What is accepted is what is latched: after acceptance the latches read back as the operation, and fit
(10_state.md R23, R24, R25, 42_pixel_streamer.md R142). -/
def Obligations.AcceptedOperationIsLatched : Prop :=
  ∀ (s : State) (i : Instr), s.cfg.wf = true → s.phase = .idle → slotOf i = .command → valid s.cfg i = true →
    ∃ t, exec i s = .next t ∧ t.phase = .frame ∧ t.latched = i ∧ latchesFit t
      ∧ t.frameBytes = encode s.cfg.byteOrder i ∧ t.hist = s.hist ∧ t.result = s.result

/-! The pixel-buffer space (20_memory.md). -/

/-- A buffer made of W × H elements reads back element by element, has no other element, and is in canonical form
(20_memory.md R51). -/
def Obligations.PixelBufferReadsBack : Prop :=
  ∀ ps : List Pixel, (bufferOf ps).wf = true ∧ ∀ i, memRead (bufferOf ps) i = ps[i]?

/-- Two buffers in canonical form that read alike at every byte address are equal: the list is data, not a log of
writes. -/
def Obligations.CanonicalBuffersAreData : Prop :=
  ∀ m m' : Memory, m.wf = true → m'.wf = true → (∀ a, readByte m a = readByte m' a) → m = m'

/-! Whole operations (42_pixel_streamer.md Part 3). -/

/-- `chunks(s, C)`: `⌈|s| / C⌉` chunks, each but the last of exactly C bytes, the last of 1 to C, and together `s`
(42_pixel_streamer.md R153). -/
def Obligations.ChunksPartitionThePayload : Prop :=
  ∀ (s : List Byte) (c : Nat), s ≠ [] → 1 ≤ c →
    (chunks s c).length = (s.length + c - 1) / c
    ∧ (∀ k b, (chunks s c)[k]? = some b → b = (s.take (min ((k + 1) * c) s.length)).drop (k * c))
    ∧ (∀ k b, k + 1 < (chunks s c).length → (chunks s c)[k]? = some b → b.length = c)
    ∧ (∀ b, (chunks s c).getLast? = some b →
        b.length = s.length - c * ((chunks s c).length - 1) ∧ 1 ≤ b.length ∧ b.length ≤ c)
    ∧ (chunks s c).flatten = s

/-- A valid operation whose writes are all answered `ok` adds to HIST its frame and then, for a DisplayBitmap, the chunks of
its payload, in order; it takes exactly the transitions of 42_pixel_streamer.md R159, puts exactly those bytes on the
wire, and reports OK (42_pixel_streamer.md R154). Its clauses about the lists of requests, answers and results and about
the free-value counter are the model's own (entries 3, 4, 5, 16). -/
def Obligations.OperationSucceeds : Prop :=
  ∀ (s : State) (p : Presented) (rest : List Presented) (i : Instr) (pix : Nat → Pixel) (more : List Answer),
    s.cfg.wf = true → s.rst = false → s.phase = .idle → s.requests = p :: rest →
    decodeRequest s.cfg p.request = some i → valid s.cfg i = true →
    (∀ n < payloadWords i, memRead p.pixels n = some (pix n)) →
    s.answers = List.replicate (operationWrites s.cfg i pix).length .ok ++ more →
    ∃ t, run (operationSteps s.cfg i) s = .next t
      ∧ t.phase = .idle ∧ t.result = .ok ∧ t.results = s.results ++ [.ok]
      ∧ t.hist = s.hist ++ (operationWrites s.cfg i pix).map (fun b => { bytes := b, outcome := .ok })
      ∧ t.wire = s.wire ++ (operationWrites s.cfg i pix).flatten
      ∧ t.requests = rest ∧ t.answers = more ∧ t.cfg = s.cfg ∧ t.draws = s.draws

/-- When the transport's first `fail` answers write k, the operation adds the k writes before it with `ok` and write k with
`fail`, issues no further write, takes no settle delay, reads no element that is not in a chunk up to k, and reports
IoError with an empty buffer (42_pixel_streamer.md R155, R157, 20_memory.md R60). Its clauses about the lists of requests,
answers and results and about the wire are the model's own (entries 3, 4, 5, 16). -/
def Obligations.OperationStopsAtTheFirstFailure : Prop :=
  ∀ (s : State) (p : Presented) (rest : List Presented) (i : Instr) (pix : Nat → Pixel) (k : Nat) (b : List Byte)
    (more : List Answer),
    s.cfg.wf = true → s.rst = false → s.phase = .idle → s.requests = p :: rest →
    decodeRequest s.cfg p.request = some i → valid s.cfg i = true →
    (∀ n < payloadWords i, 2 * n < k * s.cfg.chunkBytes → memRead p.pixels n = some (pix n)) →
    (operationWrites s.cfg i pix)[k]? = some b →
    s.answers = List.replicate k .ok ++ .fail :: more →
    ∃ n t, n ≤ operationSteps s.cfg i ∧ run n s = .next t
      ∧ t.phase = .idle ∧ t.result = .ioError ∧ t.results = s.results ++ [.ioError]
      ∧ t.hist = s.hist ++ ((operationWrites s.cfg i pix).take k).map (fun b => { bytes := b, outcome := .ok })
          ++ [{ bytes := b, outcome := .fail }]
      ∧ t.wire = s.wire ++ ((operationWrites s.cfg i pix).take k).flatten ++ b.take (Config.failedPrefix s.draws)
      ∧ t.buf = [] ∧ t.fill = 0 ∧ t.requests = rest ∧ t.answers = more

/-- Every valid operation ends within the transitions of 42_pixel_streamer.md R159, whatever the transport answers, as
long as it answers every write (70_reset_and_hazards.md R224). The lists of requests, answers and results
are the model's own (entries 3, 4, 16). -/
def Obligations.OperationTerminates : Prop :=
  ∀ (s : State) (p : Presented) (rest : List Presented) (i : Instr) (pix : Nat → Pixel),
    s.cfg.wf = true → s.rst = false → s.phase = .idle → s.requests = p :: rest →
    decodeRequest s.cfg p.request = some i → valid s.cfg i = true →
    (∀ n < payloadWords i, memRead p.pixels n = some (pix n)) →
    (operationWrites s.cfg i pix).length ≤ s.answers.length →
    ∃ n t r, 1 ≤ n ∧ n ≤ operationSteps s.cfg i ∧ run n s = .next t ∧ t.phase = .idle
      ∧ t.results = s.results ++ [r] ∧ (r = .ok ∨ r = .ioError)

/-- The chunk size is no part of the wire stream: two blocks that differ in CHUNK_MULT alone put the same bytes on the wire
for the same request, when every write is answered `ok` (30_encoding.md R92, 70_reset_and_hazards.md R223). The wire is
kept in a field of the model's own (DESIGN CHOICE, entry 16), and so are the lists of requests and answers (entries 3
and 4). -/
def Obligations.ChunkSizeIsInvisibleOnTheWire : Prop :=
  ∀ (s : State) (m : Nat) (p : Presented) (rest : List Presented) (i : Instr) (pix : Nat → Pixel) (n : Nat),
    s.cfg.wf = true → ({ s.cfg with chunkMult := m } : Config).wf = true → s.rst = false → s.phase = .idle →
    s.requests = p :: rest → decodeRequest s.cfg p.request = some i → valid s.cfg i = true →
    (∀ j < payloadWords i, memRead p.pixels j = some (pix j)) →
    s.answers = List.replicate n .ok → operationSteps s.cfg i ≤ n →
    operationSteps { s.cfg with chunkMult := m } i ≤ n →
    ∃ t t' : State,
      run (operationSteps s.cfg i) s = .next t
      ∧ run (operationSteps { s.cfg with chunkMult := m } i)
          { s with cfg := { s.cfg with chunkMult := m } } = .next t'
      ∧ t.phase = .idle ∧ t'.phase = .idle ∧ t.result = .ok ∧ t'.result = .ok ∧ t.wire = t'.wire

/-- An operation depends on nothing that came before it: two idle blocks with the same configuration, requests and answers
make the same writes with the same outcomes and report the same results, whatever their latches, cursor, buffer,
RESULT and histories hold (10_state.md R20, 43_display_commands.md R168). The lists of requests, answers and
results are the model's own (entries 3, 4, 16). -/
def Obligations.OperationsAreIndependent : Prop :=
  ∀ (s s' : State) (n : Nat) (t : State),
    s.phase = .idle → s'.phase = .idle → s.cfg = s'.cfg → s.requests = s'.requests → s.answers = s'.answers →
    s.rst = false → s'.rst = false →
    run n s = .next t →
    ∃ t', run n s' = .next t' ∧ t.phase = t'.phase
      ∧ t.hist.drop s.hist.length = t'.hist.drop s'.hist.length
      ∧ t.results.drop s.results.length = t'.results.drop s'.results.length
      ∧ t.requests = t'.requests ∧ t.answers = t'.answers
end

