-- ==== Sys2Proof/Laws/Encoding.lean ====
section
/-! SUPPORT. The encoder's, the field extraction's and the converter's values in plain arithmetic, so that a proof about
them is one about quotients and remainders. -/

namespace Sys2Proof

open Machine

/-- Every command has its opcode byte, and the byte selects it again (30_encoding.md R85). -/
@[simp] theorem commandOf_opcode (c : Command) : commandOf (opcode c) = some c := by cases c <;> rfl

/-- A byte selects a command exactly when it is that command's opcode (30_encoding.md R93). -/
theorem commandOf_eq_some {b : Byte} {c : Command} : commandOf b = some c ↔ b = opcode c := by
  refine ⟨fun h => ?_, fun h => h ▸ commandOf_opcode c⟩
  unfold commandOf at h
  split_ifs at h with h1 h2 h3 h4 h5 h6 <;> cases h <;> assumption

/-- The packing formula without shifts and masks (41_frame_encoder.md R120). -/
theorem frameFormula_eq (cmd x y ex ey : Nat) : frameFormula cmd x y ex ey =
    [x / 4, x % 4 * 64 + y / 16, y % 16 * 16 + ex / 64, ex % 64 * 4 + ey / 256, ey % 256, cmd] := by
  have h3 : x &&& 3 = x % 4 := Nat.and_two_pow_sub_one_eq_mod x 2
  have h15 : y &&& 15 = y % 16 := Nat.and_two_pow_sub_one_eq_mod y 4
  have h63 : ex &&& 63 = ex % 64 := Nat.and_two_pow_sub_one_eq_mod ex 6
  have h255 : ey &&& 255 = ey % 256 := Nat.and_two_pow_sub_one_eq_mod ey 8
  simp [frameFormula, h3, h15, h63, h255, Nat.shiftLeft_eq, Nat.shiftRight_eq_div_pow]

/-- The six bytes of a frame as numbers. -/
theorem encodeFrame_toNat (cmd : Byte) (x y ex ey : Coord) : (encodeFrame cmd x y ex ey).map BitVec.toNat =
    [x.toNat / 4, x.toNat % 4 * 64 + y.toNat / 16, y.toNat % 16 * 16 + ex.toNat / 64,
      ex.toNat % 64 * 4 + ey.toNat / 256, ey.toNat % 256, cmd.toNat] := by
  have := cmd.isLt; have := x.isLt; have := y.isLt; have := ex.isLt; have := ey.isLt
  simp only [encodeFrame, frameFormula_eq, List.map_cons, List.map_nil, BitVec.toNat_ofNat, List.cons.injEq, and_true]
  refine ⟨?_, ?_, ?_, ?_, ?_, ?_⟩ <;> omega

/-- A shifted field and a disjoint one: `|` is `+`. -/
theorem toNat_shiftLeft_or {k : Nat} (hi lo : Coord) (hh : hi.toNat * 2 ^ k < 1024) (hl : lo.toNat < 2 ^ k) :
    ((hi <<< k) ||| lo).toNat = hi.toNat * 2 ^ k + lo.toNat := by
  rw [BitVec.toNat_or, BitVec.toNat_shiftLeft, Nat.shiftLeft_eq, Nat.mod_eq_of_lt hh, Nat.mul_comm,
    ← Nat.two_pow_add_eq_or_of_lt hl]

theorem toNat_setWidth_byte (b : Byte) : (b.setWidth 10).toNat = b.toNat := by
  have := b.isLt
  rw [BitVec.toNat_setWidth, Nat.mod_eq_of_lt (by omega)]

theorem toNat_and_low (b : Byte) (k : Nat) (m : Coord) (hm : m.toNat = 2 ^ k - 1) :
    (b.setWidth 10 &&& m).toNat = b.toNat % 2 ^ k := by
  rw [BitVec.toNat_and, hm, Nat.and_two_pow_sub_one_eq_mod, toNat_setWidth_byte]

theorem toNat_setWidth_byte_shiftRight (b : Byte) (k : Nat) : (b.setWidth 10 >>> k).toNat = b.toNat / 2 ^ k := by
  rw [BitVec.toNat_ushiftRight, toNat_setWidth_byte, Nat.shiftRight_eq_div_pow]

/-! The four fields as numbers (30_encoding.md R98). -/

theorem frameX_toNat (b0 b1 : Byte) : (frameX b0 b1).toNat = b0.toNat * 4 + b1.toNat / 64 := by
  have := b0.isLt; have := b1.isLt
  have e0 := toNat_setWidth_byte b0
  have e1 : (b1.setWidth 10 >>> 6).toNat = b1.toNat / 64 := toNat_setWidth_byte_shiftRight b1 6
  rw [frameX, toNat_shiftLeft_or _ _ (by omega) (by omega), e0, e1]
  rfl

theorem frameY_toNat (b1 b2 : Byte) : (frameY b1 b2).toNat = b1.toNat % 64 * 16 + b2.toNat / 16 := by
  have := b1.isLt; have := b2.isLt
  have e1 : (b1.setWidth 10 &&& 63).toNat = b1.toNat % 64 := toNat_and_low b1 6 63 rfl
  have e2 : (b2.setWidth 10 >>> 4).toNat = b2.toNat / 16 := toNat_setWidth_byte_shiftRight b2 4
  rw [frameY, toNat_shiftLeft_or _ _ (by omega) (by omega), e1, e2]
  rfl

theorem frameEx_toNat (b2 b3 : Byte) : (frameEx b2 b3).toNat = b2.toNat % 16 * 64 + b3.toNat / 4 := by
  have := b2.isLt; have := b3.isLt
  have e2 : (b2.setWidth 10 &&& 15).toNat = b2.toNat % 16 := toNat_and_low b2 4 15 rfl
  have e3 : (b3.setWidth 10 >>> 2).toNat = b3.toNat / 4 := toNat_setWidth_byte_shiftRight b3 2
  rw [frameEx, toNat_shiftLeft_or _ _ (by omega) (by omega), e2, e3]
  rfl

theorem frameEy_toNat (b3 b4 : Byte) : (frameEy b3 b4).toNat = b3.toNat % 4 * 256 + b4.toNat := by
  have := b3.isLt; have := b4.isLt
  have e3 : (b3.setWidth 10 &&& 3).toNat = b3.toNat % 4 := toNat_and_low b3 2 3 rfl
  have e4 := toNat_setWidth_byte b4
  rw [frameEy, toNat_shiftLeft_or _ _ (by omega) (by omega), e3, e4]
  rfl

/-! The two bytes of a pixel word as numbers. -/

theorem wordBytes_le_toNat (v : PixelWord) : (wordBytes .le v).map BitVec.toNat = [v.toNat % 256, v.toNat / 256] := by
  have := v.isLt
  simp only [wordBytes, List.map_cons, List.map_nil, BitVec.extractLsb'_toNat, Nat.shiftRight_eq_div_pow, List.cons.injEq,
    and_true]
  constructor <;> omega

theorem wordBytes_be_toNat (v : PixelWord) : (wordBytes .be v).map BitVec.toNat = [v.toNat / 256, v.toNat % 256] := by
  have := v.isLt
  simp only [wordBytes, List.map_cons, List.map_nil, BitVec.extractLsb'_toNat, Nat.shiftRight_eq_div_pow, List.cons.injEq,
    and_true]
  constructor <;> omega

end Sys2Proof
end

