-- ==== Sys2Proof/Laws/State.lean ====
section
/-! SUPPORT. One lemma per field of State per register update, each true by definition. -/

namespace Sys2Proof.Machine

/-! `setPhase`: the phase alone -/

@[simp] theorem setPhase_phase (p : Phase) (s : State) : (setPhase p s).phase = p := rfl
@[simp] theorem setPhase_cmd (p : Phase) (s : State) : (setPhase p s).cmd = s.cmd := rfl
@[simp] theorem setPhase_fx (p : Phase) (s : State) : (setPhase p s).fx = s.fx := rfl
@[simp] theorem setPhase_fy (p : Phase) (s : State) : (setPhase p s).fy = s.fy := rfl
@[simp] theorem setPhase_fex (p : Phase) (s : State) : (setPhase p s).fex = s.fex := rfl
@[simp] theorem setPhase_fey (p : Phase) (s : State) : (setPhase p s).fey = s.fey := rfl
@[simp] theorem setPhase_w (p : Phase) (s : State) : (setPhase p s).w = s.w := rfl
@[simp] theorem setPhase_h (p : Phase) (s : State) : (setPhase p s).h = s.h := rfl
@[simp] theorem setPhase_row (p : Phase) (s : State) : (setPhase p s).row = s.row := rfl
@[simp] theorem setPhase_col (p : Phase) (s : State) : (setPhase p s).col = s.col := rfl
@[simp] theorem setPhase_buf (p : Phase) (s : State) : (setPhase p s).buf = s.buf := rfl
@[simp] theorem setPhase_fill (p : Phase) (s : State) : (setPhase p s).fill = s.fill := rfl
@[simp] theorem setPhase_result (p : Phase) (s : State) : (setPhase p s).result = s.result := rfl
@[simp] theorem setPhase_cfg (p : Phase) (s : State) : (setPhase p s).cfg = s.cfg := rfl
@[simp] theorem setPhase_requests (p : Phase) (s : State) : (setPhase p s).requests = s.requests := rfl
@[simp] theorem setPhase_pixels (p : Phase) (s : State) : (setPhase p s).pixels = s.pixels := rfl
@[simp] theorem setPhase_answers (p : Phase) (s : State) : (setPhase p s).answers = s.answers := rfl
@[simp] theorem setPhase_rst (p : Phase) (s : State) : (setPhase p s).rst = s.rst := rfl
@[simp] theorem setPhase_hist (p : Phase) (s : State) : (setPhase p s).hist = s.hist := rfl
@[simp] theorem setPhase_wire (p : Phase) (s : State) : (setPhase p s).wire = s.wire := rfl
@[simp] theorem setPhase_results (p : Phase) (s : State) : (setPhase p s).results = s.results := rfl
@[simp] theorem setPhase_draws (p : Phase) (s : State) : (setPhase p s).draws = s.draws := rfl

/-! `latch`: CMD and the four frame fields -/

@[simp] theorem latch_phase (c : Command) (x y ex ey : Coord) (s : State) : (latch c x y ex ey s).phase = s.phase := rfl
@[simp] theorem latch_cmd (c : Command) (x y ex ey : Coord) (s : State) : (latch c x y ex ey s).cmd = c := rfl
@[simp] theorem latch_fx (c : Command) (x y ex ey : Coord) (s : State) : (latch c x y ex ey s).fx = x := rfl
@[simp] theorem latch_fy (c : Command) (x y ex ey : Coord) (s : State) : (latch c x y ex ey s).fy = y := rfl
@[simp] theorem latch_fex (c : Command) (x y ex ey : Coord) (s : State) : (latch c x y ex ey s).fex = ex := rfl
@[simp] theorem latch_fey (c : Command) (x y ex ey : Coord) (s : State) : (latch c x y ex ey s).fey = ey := rfl
@[simp] theorem latch_w (c : Command) (x y ex ey : Coord) (s : State) : (latch c x y ex ey s).w = s.w := rfl
@[simp] theorem latch_h (c : Command) (x y ex ey : Coord) (s : State) : (latch c x y ex ey s).h = s.h := rfl
@[simp] theorem latch_row (c : Command) (x y ex ey : Coord) (s : State) : (latch c x y ex ey s).row = s.row := rfl
@[simp] theorem latch_col (c : Command) (x y ex ey : Coord) (s : State) : (latch c x y ex ey s).col = s.col := rfl
@[simp] theorem latch_buf (c : Command) (x y ex ey : Coord) (s : State) : (latch c x y ex ey s).buf = s.buf := rfl
@[simp] theorem latch_fill (c : Command) (x y ex ey : Coord) (s : State) : (latch c x y ex ey s).fill = s.fill := rfl
@[simp] theorem latch_result (c : Command) (x y ex ey : Coord) (s : State) : (latch c x y ex ey s).result = s.result := rfl
@[simp] theorem latch_cfg (c : Command) (x y ex ey : Coord) (s : State) : (latch c x y ex ey s).cfg = s.cfg := rfl
@[simp] theorem latch_requests (c : Command) (x y ex ey : Coord) (s : State) : (latch c x y ex ey s).requests = s.requests := rfl
@[simp] theorem latch_pixels (c : Command) (x y ex ey : Coord) (s : State) : (latch c x y ex ey s).pixels = s.pixels := rfl
@[simp] theorem latch_answers (c : Command) (x y ex ey : Coord) (s : State) : (latch c x y ex ey s).answers = s.answers := rfl
@[simp] theorem latch_rst (c : Command) (x y ex ey : Coord) (s : State) : (latch c x y ex ey s).rst = s.rst := rfl
@[simp] theorem latch_hist (c : Command) (x y ex ey : Coord) (s : State) : (latch c x y ex ey s).hist = s.hist := rfl
@[simp] theorem latch_wire (c : Command) (x y ex ey : Coord) (s : State) : (latch c x y ex ey s).wire = s.wire := rfl
@[simp] theorem latch_results (c : Command) (x y ex ey : Coord) (s : State) : (latch c x y ex ey s).results = s.results := rfl
@[simp] theorem latch_draws (c : Command) (x y ex ey : Coord) (s : State) : (latch c x y ex ey s).draws = s.draws := rfl

/-! `latchSize`: W and H -/

@[simp] theorem latchSize_phase (w h : Extent) (s : State) : (latchSize w h s).phase = s.phase := rfl
@[simp] theorem latchSize_cmd (w h : Extent) (s : State) : (latchSize w h s).cmd = s.cmd := rfl
@[simp] theorem latchSize_fx (w h : Extent) (s : State) : (latchSize w h s).fx = s.fx := rfl
@[simp] theorem latchSize_fy (w h : Extent) (s : State) : (latchSize w h s).fy = s.fy := rfl
@[simp] theorem latchSize_fex (w h : Extent) (s : State) : (latchSize w h s).fex = s.fex := rfl
@[simp] theorem latchSize_fey (w h : Extent) (s : State) : (latchSize w h s).fey = s.fey := rfl
@[simp] theorem latchSize_w (w h : Extent) (s : State) : (latchSize w h s).w = w := rfl
@[simp] theorem latchSize_h (w h : Extent) (s : State) : (latchSize w h s).h = h := rfl
@[simp] theorem latchSize_row (w h : Extent) (s : State) : (latchSize w h s).row = s.row := rfl
@[simp] theorem latchSize_col (w h : Extent) (s : State) : (latchSize w h s).col = s.col := rfl
@[simp] theorem latchSize_buf (w h : Extent) (s : State) : (latchSize w h s).buf = s.buf := rfl
@[simp] theorem latchSize_fill (w h : Extent) (s : State) : (latchSize w h s).fill = s.fill := rfl
@[simp] theorem latchSize_result (w h : Extent) (s : State) : (latchSize w h s).result = s.result := rfl
@[simp] theorem latchSize_cfg (w h : Extent) (s : State) : (latchSize w h s).cfg = s.cfg := rfl
@[simp] theorem latchSize_requests (w h : Extent) (s : State) : (latchSize w h s).requests = s.requests := rfl
@[simp] theorem latchSize_pixels (w h : Extent) (s : State) : (latchSize w h s).pixels = s.pixels := rfl
@[simp] theorem latchSize_answers (w h : Extent) (s : State) : (latchSize w h s).answers = s.answers := rfl
@[simp] theorem latchSize_rst (w h : Extent) (s : State) : (latchSize w h s).rst = s.rst := rfl
@[simp] theorem latchSize_hist (w h : Extent) (s : State) : (latchSize w h s).hist = s.hist := rfl
@[simp] theorem latchSize_wire (w h : Extent) (s : State) : (latchSize w h s).wire = s.wire := rfl
@[simp] theorem latchSize_results (w h : Extent) (s : State) : (latchSize w h s).results = s.results := rfl
@[simp] theorem latchSize_draws (w h : Extent) (s : State) : (latchSize w h s).draws = s.draws := rfl

/-! `startCursor`: the cursor alone -/

@[simp] theorem startCursor_phase (s : State) : (startCursor s).phase = s.phase := rfl
@[simp] theorem startCursor_cmd (s : State) : (startCursor s).cmd = s.cmd := rfl
@[simp] theorem startCursor_fx (s : State) : (startCursor s).fx = s.fx := rfl
@[simp] theorem startCursor_fy (s : State) : (startCursor s).fy = s.fy := rfl
@[simp] theorem startCursor_fex (s : State) : (startCursor s).fex = s.fex := rfl
@[simp] theorem startCursor_fey (s : State) : (startCursor s).fey = s.fey := rfl
@[simp] theorem startCursor_w (s : State) : (startCursor s).w = s.w := rfl
@[simp] theorem startCursor_h (s : State) : (startCursor s).h = s.h := rfl
@[simp] theorem startCursor_row (s : State) : (startCursor s).row = 0 := rfl
@[simp] theorem startCursor_col (s : State) : (startCursor s).col = 0 := rfl
@[simp] theorem startCursor_buf (s : State) : (startCursor s).buf = s.buf := rfl
@[simp] theorem startCursor_fill (s : State) : (startCursor s).fill = s.fill := rfl
@[simp] theorem startCursor_result (s : State) : (startCursor s).result = s.result := rfl
@[simp] theorem startCursor_cfg (s : State) : (startCursor s).cfg = s.cfg := rfl
@[simp] theorem startCursor_requests (s : State) : (startCursor s).requests = s.requests := rfl
@[simp] theorem startCursor_pixels (s : State) : (startCursor s).pixels = s.pixels := rfl
@[simp] theorem startCursor_answers (s : State) : (startCursor s).answers = s.answers := rfl
@[simp] theorem startCursor_rst (s : State) : (startCursor s).rst = s.rst := rfl
@[simp] theorem startCursor_hist (s : State) : (startCursor s).hist = s.hist := rfl
@[simp] theorem startCursor_wire (s : State) : (startCursor s).wire = s.wire := rfl
@[simp] theorem startCursor_results (s : State) : (startCursor s).results = s.results := rfl
@[simp] theorem startCursor_draws (s : State) : (startCursor s).draws = s.draws := rfl

/-! `advanceCursor`: the cursor alone -/

@[simp] theorem advanceCursor_phase (s : State) : (advanceCursor s).phase = s.phase := rfl
@[simp] theorem advanceCursor_cmd (s : State) : (advanceCursor s).cmd = s.cmd := rfl
@[simp] theorem advanceCursor_fx (s : State) : (advanceCursor s).fx = s.fx := rfl
@[simp] theorem advanceCursor_fy (s : State) : (advanceCursor s).fy = s.fy := rfl
@[simp] theorem advanceCursor_fex (s : State) : (advanceCursor s).fex = s.fex := rfl
@[simp] theorem advanceCursor_fey (s : State) : (advanceCursor s).fey = s.fey := rfl
@[simp] theorem advanceCursor_w (s : State) : (advanceCursor s).w = s.w := rfl
@[simp] theorem advanceCursor_h (s : State) : (advanceCursor s).h = s.h := rfl
@[simp] theorem advanceCursor_row (s : State) : (advanceCursor s).row = s.nextRow := rfl
@[simp] theorem advanceCursor_col (s : State) : (advanceCursor s).col = s.nextCol := rfl
@[simp] theorem advanceCursor_buf (s : State) : (advanceCursor s).buf = s.buf := rfl
@[simp] theorem advanceCursor_fill (s : State) : (advanceCursor s).fill = s.fill := rfl
@[simp] theorem advanceCursor_result (s : State) : (advanceCursor s).result = s.result := rfl
@[simp] theorem advanceCursor_cfg (s : State) : (advanceCursor s).cfg = s.cfg := rfl
@[simp] theorem advanceCursor_requests (s : State) : (advanceCursor s).requests = s.requests := rfl
@[simp] theorem advanceCursor_pixels (s : State) : (advanceCursor s).pixels = s.pixels := rfl
@[simp] theorem advanceCursor_answers (s : State) : (advanceCursor s).answers = s.answers := rfl
@[simp] theorem advanceCursor_rst (s : State) : (advanceCursor s).rst = s.rst := rfl
@[simp] theorem advanceCursor_hist (s : State) : (advanceCursor s).hist = s.hist := rfl
@[simp] theorem advanceCursor_wire (s : State) : (advanceCursor s).wire = s.wire := rfl
@[simp] theorem advanceCursor_results (s : State) : (advanceCursor s).results = s.results := rfl
@[simp] theorem advanceCursor_draws (s : State) : (advanceCursor s).draws = s.draws := rfl

/-! `appendBytes`: BUF and FILL -/

@[simp] theorem appendBytes_phase (bytes : List Byte) (s : State) : (appendBytes bytes s).phase = s.phase := rfl
@[simp] theorem appendBytes_cmd (bytes : List Byte) (s : State) : (appendBytes bytes s).cmd = s.cmd := rfl
@[simp] theorem appendBytes_fx (bytes : List Byte) (s : State) : (appendBytes bytes s).fx = s.fx := rfl
@[simp] theorem appendBytes_fy (bytes : List Byte) (s : State) : (appendBytes bytes s).fy = s.fy := rfl
@[simp] theorem appendBytes_fex (bytes : List Byte) (s : State) : (appendBytes bytes s).fex = s.fex := rfl
@[simp] theorem appendBytes_fey (bytes : List Byte) (s : State) : (appendBytes bytes s).fey = s.fey := rfl
@[simp] theorem appendBytes_w (bytes : List Byte) (s : State) : (appendBytes bytes s).w = s.w := rfl
@[simp] theorem appendBytes_h (bytes : List Byte) (s : State) : (appendBytes bytes s).h = s.h := rfl
@[simp] theorem appendBytes_row (bytes : List Byte) (s : State) : (appendBytes bytes s).row = s.row := rfl
@[simp] theorem appendBytes_col (bytes : List Byte) (s : State) : (appendBytes bytes s).col = s.col := rfl
@[simp] theorem appendBytes_buf (bytes : List Byte) (s : State) : (appendBytes bytes s).buf = s.buf ++ bytes := rfl
@[simp] theorem appendBytes_fill (bytes : List Byte) (s : State) : (appendBytes bytes s).fill = s.fill + bytes.length := rfl
@[simp] theorem appendBytes_result (bytes : List Byte) (s : State) : (appendBytes bytes s).result = s.result := rfl
@[simp] theorem appendBytes_cfg (bytes : List Byte) (s : State) : (appendBytes bytes s).cfg = s.cfg := rfl
@[simp] theorem appendBytes_requests (bytes : List Byte) (s : State) : (appendBytes bytes s).requests = s.requests := rfl
@[simp] theorem appendBytes_pixels (bytes : List Byte) (s : State) : (appendBytes bytes s).pixels = s.pixels := rfl
@[simp] theorem appendBytes_answers (bytes : List Byte) (s : State) : (appendBytes bytes s).answers = s.answers := rfl
@[simp] theorem appendBytes_rst (bytes : List Byte) (s : State) : (appendBytes bytes s).rst = s.rst := rfl
@[simp] theorem appendBytes_hist (bytes : List Byte) (s : State) : (appendBytes bytes s).hist = s.hist := rfl
@[simp] theorem appendBytes_wire (bytes : List Byte) (s : State) : (appendBytes bytes s).wire = s.wire := rfl
@[simp] theorem appendBytes_results (bytes : List Byte) (s : State) : (appendBytes bytes s).results = s.results := rfl
@[simp] theorem appendBytes_draws (bytes : List Byte) (s : State) : (appendBytes bytes s).draws = s.draws := rfl

/-! `emptyBuffer`: BUF and FILL -/

@[simp] theorem emptyBuffer_phase (s : State) : (emptyBuffer s).phase = s.phase := rfl
@[simp] theorem emptyBuffer_cmd (s : State) : (emptyBuffer s).cmd = s.cmd := rfl
@[simp] theorem emptyBuffer_fx (s : State) : (emptyBuffer s).fx = s.fx := rfl
@[simp] theorem emptyBuffer_fy (s : State) : (emptyBuffer s).fy = s.fy := rfl
@[simp] theorem emptyBuffer_fex (s : State) : (emptyBuffer s).fex = s.fex := rfl
@[simp] theorem emptyBuffer_fey (s : State) : (emptyBuffer s).fey = s.fey := rfl
@[simp] theorem emptyBuffer_w (s : State) : (emptyBuffer s).w = s.w := rfl
@[simp] theorem emptyBuffer_h (s : State) : (emptyBuffer s).h = s.h := rfl
@[simp] theorem emptyBuffer_row (s : State) : (emptyBuffer s).row = s.row := rfl
@[simp] theorem emptyBuffer_col (s : State) : (emptyBuffer s).col = s.col := rfl
@[simp] theorem emptyBuffer_buf (s : State) : (emptyBuffer s).buf = [] := rfl
@[simp] theorem emptyBuffer_fill (s : State) : (emptyBuffer s).fill = 0 := rfl
@[simp] theorem emptyBuffer_result (s : State) : (emptyBuffer s).result = s.result := rfl
@[simp] theorem emptyBuffer_cfg (s : State) : (emptyBuffer s).cfg = s.cfg := rfl
@[simp] theorem emptyBuffer_requests (s : State) : (emptyBuffer s).requests = s.requests := rfl
@[simp] theorem emptyBuffer_pixels (s : State) : (emptyBuffer s).pixels = s.pixels := rfl
@[simp] theorem emptyBuffer_answers (s : State) : (emptyBuffer s).answers = s.answers := rfl
@[simp] theorem emptyBuffer_rst (s : State) : (emptyBuffer s).rst = s.rst := rfl
@[simp] theorem emptyBuffer_hist (s : State) : (emptyBuffer s).hist = s.hist := rfl
@[simp] theorem emptyBuffer_wire (s : State) : (emptyBuffer s).wire = s.wire := rfl
@[simp] theorem emptyBuffer_results (s : State) : (emptyBuffer s).results = s.results := rfl
@[simp] theorem emptyBuffer_draws (s : State) : (emptyBuffer s).draws = s.draws := rfl

/-! `complete`: the phase, RESULT and the list of results -/

@[simp] theorem complete_phase (r : Result) (s : State) : (complete r s).phase = Phase.idle := rfl
@[simp] theorem complete_cmd (r : Result) (s : State) : (complete r s).cmd = s.cmd := rfl
@[simp] theorem complete_fx (r : Result) (s : State) : (complete r s).fx = s.fx := rfl
@[simp] theorem complete_fy (r : Result) (s : State) : (complete r s).fy = s.fy := rfl
@[simp] theorem complete_fex (r : Result) (s : State) : (complete r s).fex = s.fex := rfl
@[simp] theorem complete_fey (r : Result) (s : State) : (complete r s).fey = s.fey := rfl
@[simp] theorem complete_w (r : Result) (s : State) : (complete r s).w = s.w := rfl
@[simp] theorem complete_h (r : Result) (s : State) : (complete r s).h = s.h := rfl
@[simp] theorem complete_row (r : Result) (s : State) : (complete r s).row = s.row := rfl
@[simp] theorem complete_col (r : Result) (s : State) : (complete r s).col = s.col := rfl
@[simp] theorem complete_buf (r : Result) (s : State) : (complete r s).buf = s.buf := rfl
@[simp] theorem complete_fill (r : Result) (s : State) : (complete r s).fill = s.fill := rfl
@[simp] theorem complete_result (r : Result) (s : State) : (complete r s).result = r := rfl
@[simp] theorem complete_cfg (r : Result) (s : State) : (complete r s).cfg = s.cfg := rfl
@[simp] theorem complete_requests (r : Result) (s : State) : (complete r s).requests = s.requests := rfl
@[simp] theorem complete_pixels (r : Result) (s : State) : (complete r s).pixels = s.pixels := rfl
@[simp] theorem complete_answers (r : Result) (s : State) : (complete r s).answers = s.answers := rfl
@[simp] theorem complete_rst (r : Result) (s : State) : (complete r s).rst = s.rst := rfl
@[simp] theorem complete_hist (r : Result) (s : State) : (complete r s).hist = s.hist := rfl
@[simp] theorem complete_wire (r : Result) (s : State) : (complete r s).wire = s.wire := rfl
@[simp] theorem complete_results (r : Result) (s : State) : (complete r s).results = s.results ++ [r] := rfl
@[simp] theorem complete_draws (r : Result) (s : State) : (complete r s).draws = s.draws := rfl

/-! `recordWrite`: the answer used, HIST, the wire and the free-value counter -/

@[simp] theorem recordWrite_phase (bytes : List Byte) (a : Answer) (s : State) : (recordWrite bytes a s).phase = s.phase := rfl
@[simp] theorem recordWrite_cmd (bytes : List Byte) (a : Answer) (s : State) : (recordWrite bytes a s).cmd = s.cmd := rfl
@[simp] theorem recordWrite_fx (bytes : List Byte) (a : Answer) (s : State) : (recordWrite bytes a s).fx = s.fx := rfl
@[simp] theorem recordWrite_fy (bytes : List Byte) (a : Answer) (s : State) : (recordWrite bytes a s).fy = s.fy := rfl
@[simp] theorem recordWrite_fex (bytes : List Byte) (a : Answer) (s : State) : (recordWrite bytes a s).fex = s.fex := rfl
@[simp] theorem recordWrite_fey (bytes : List Byte) (a : Answer) (s : State) : (recordWrite bytes a s).fey = s.fey := rfl
@[simp] theorem recordWrite_w (bytes : List Byte) (a : Answer) (s : State) : (recordWrite bytes a s).w = s.w := rfl
@[simp] theorem recordWrite_h (bytes : List Byte) (a : Answer) (s : State) : (recordWrite bytes a s).h = s.h := rfl
@[simp] theorem recordWrite_row (bytes : List Byte) (a : Answer) (s : State) : (recordWrite bytes a s).row = s.row := rfl
@[simp] theorem recordWrite_col (bytes : List Byte) (a : Answer) (s : State) : (recordWrite bytes a s).col = s.col := rfl
@[simp] theorem recordWrite_buf (bytes : List Byte) (a : Answer) (s : State) : (recordWrite bytes a s).buf = s.buf := rfl
@[simp] theorem recordWrite_fill (bytes : List Byte) (a : Answer) (s : State) : (recordWrite bytes a s).fill = s.fill := rfl
@[simp] theorem recordWrite_result (bytes : List Byte) (a : Answer) (s : State) : (recordWrite bytes a s).result = s.result := rfl
@[simp] theorem recordWrite_cfg (bytes : List Byte) (a : Answer) (s : State) : (recordWrite bytes a s).cfg = s.cfg := rfl
@[simp] theorem recordWrite_requests (bytes : List Byte) (a : Answer) (s : State) : (recordWrite bytes a s).requests = s.requests := rfl
@[simp] theorem recordWrite_pixels (bytes : List Byte) (a : Answer) (s : State) : (recordWrite bytes a s).pixels = s.pixels := rfl
@[simp] theorem recordWrite_answers (bytes : List Byte) (a : Answer) (s : State) : (recordWrite bytes a s).answers = s.answers.tail := rfl
@[simp] theorem recordWrite_rst (bytes : List Byte) (a : Answer) (s : State) : (recordWrite bytes a s).rst = s.rst := rfl
@[simp] theorem recordWrite_hist (bytes : List Byte) (a : Answer) (s : State) : (recordWrite bytes a s).hist = s.hist ++ [Write.mk bytes a] := rfl
@[simp] theorem recordWrite_wire (bytes : List Byte) (a : Answer) (s : State) : (recordWrite bytes a s).wire = s.wire ++ delivered a (Config.failedPrefix s.draws) bytes := rfl
@[simp] theorem recordWrite_results (bytes : List Byte) (a : Answer) (s : State) : (recordWrite bytes a s).results = s.results := rfl
@[simp] theorem recordWrite_draws (bytes : List Byte) (a : Answer) (s : State) : (recordWrite bytes a s).draws = if a = .fail then s.draws + 1 else s.draws := rfl

/-! `present`: the two ports of the host -/

@[simp] theorem present_phase (p : Presented) (rest : List Presented) (s : State) : (present p rest s).phase = s.phase := rfl
@[simp] theorem present_cmd (p : Presented) (rest : List Presented) (s : State) : (present p rest s).cmd = s.cmd := rfl
@[simp] theorem present_fx (p : Presented) (rest : List Presented) (s : State) : (present p rest s).fx = s.fx := rfl
@[simp] theorem present_fy (p : Presented) (rest : List Presented) (s : State) : (present p rest s).fy = s.fy := rfl
@[simp] theorem present_fex (p : Presented) (rest : List Presented) (s : State) : (present p rest s).fex = s.fex := rfl
@[simp] theorem present_fey (p : Presented) (rest : List Presented) (s : State) : (present p rest s).fey = s.fey := rfl
@[simp] theorem present_w (p : Presented) (rest : List Presented) (s : State) : (present p rest s).w = s.w := rfl
@[simp] theorem present_h (p : Presented) (rest : List Presented) (s : State) : (present p rest s).h = s.h := rfl
@[simp] theorem present_row (p : Presented) (rest : List Presented) (s : State) : (present p rest s).row = s.row := rfl
@[simp] theorem present_col (p : Presented) (rest : List Presented) (s : State) : (present p rest s).col = s.col := rfl
@[simp] theorem present_buf (p : Presented) (rest : List Presented) (s : State) : (present p rest s).buf = s.buf := rfl
@[simp] theorem present_fill (p : Presented) (rest : List Presented) (s : State) : (present p rest s).fill = s.fill := rfl
@[simp] theorem present_result (p : Presented) (rest : List Presented) (s : State) : (present p rest s).result = s.result := rfl
@[simp] theorem present_cfg (p : Presented) (rest : List Presented) (s : State) : (present p rest s).cfg = s.cfg := rfl
@[simp] theorem present_requests (p : Presented) (rest : List Presented) (s : State) : (present p rest s).requests = rest := rfl
@[simp] theorem present_pixels (p : Presented) (rest : List Presented) (s : State) : (present p rest s).pixels = p.pixels := rfl
@[simp] theorem present_answers (p : Presented) (rest : List Presented) (s : State) : (present p rest s).answers = s.answers := rfl
@[simp] theorem present_rst (p : Presented) (rest : List Presented) (s : State) : (present p rest s).rst = s.rst := rfl
@[simp] theorem present_hist (p : Presented) (rest : List Presented) (s : State) : (present p rest s).hist = s.hist := rfl
@[simp] theorem present_wire (p : Presented) (rest : List Presented) (s : State) : (present p rest s).wire = s.wire := rfl
@[simp] theorem present_results (p : Presented) (rest : List Presented) (s : State) : (present p rest s).results = s.results := rfl
@[simp] theorem present_draws (p : Presented) (rest : List Presented) (s : State) : (present p rest s).draws = s.draws := rfl

/-! `blockReset`: the block's state as after reset, the configuration and the ports kept -/

@[simp] theorem blockReset_phase (s : State) : (blockReset s).phase = Phase.idle := rfl
@[simp] theorem blockReset_cmd (s : State) : (blockReset s).cmd = Command.reset := rfl
@[simp] theorem blockReset_fx (s : State) : (blockReset s).fx = 0 := rfl
@[simp] theorem blockReset_fy (s : State) : (blockReset s).fy = 0 := rfl
@[simp] theorem blockReset_fex (s : State) : (blockReset s).fex = 0 := rfl
@[simp] theorem blockReset_fey (s : State) : (blockReset s).fey = 0 := rfl
@[simp] theorem blockReset_w (s : State) : (blockReset s).w = 0 := rfl
@[simp] theorem blockReset_h (s : State) : (blockReset s).h = 0 := rfl
@[simp] theorem blockReset_row (s : State) : (blockReset s).row = 0 := rfl
@[simp] theorem blockReset_col (s : State) : (blockReset s).col = 0 := rfl
@[simp] theorem blockReset_buf (s : State) : (blockReset s).buf = [] := rfl
@[simp] theorem blockReset_fill (s : State) : (blockReset s).fill = 0 := rfl
@[simp] theorem blockReset_result (s : State) : (blockReset s).result = Result.ok := rfl
@[simp] theorem blockReset_cfg (s : State) : (blockReset s).cfg = s.cfg := rfl
@[simp] theorem blockReset_requests (s : State) : (blockReset s).requests = s.requests := rfl
@[simp] theorem blockReset_pixels (s : State) : (blockReset s).pixels = s.pixels := rfl
@[simp] theorem blockReset_answers (s : State) : (blockReset s).answers = s.answers := rfl
@[simp] theorem blockReset_rst (s : State) : (blockReset s).rst = false := rfl
@[simp] theorem blockReset_hist (s : State) : (blockReset s).hist = [] := rfl
@[simp] theorem blockReset_wire (s : State) : (blockReset s).wire = s.wire ++ delivered .fail (Config.failedPrefix s.draws) (s.writeInProgress.getD []) := rfl
@[simp] theorem blockReset_results (s : State) : (blockReset s).results = [] := rfl
@[simp] theorem blockReset_draws (s : State) : (blockReset s).draws = if s.writeInProgress.isSome then s.draws + 1 else s.draws := rfl

end Sys2Proof.Machine
end

