-- ==== Sys2Proof/Laws/Memory.lean ====
section
/-! SUPPORT. The pixel-buffer space: what reading below the first cell gives, that every operation that makes or moves a
buffer keeps the canonical form (strictly rising addresses), and that the memory of `State.reset` has it. The block has
no write to this space (10_state.md R30), so these are all of its operations. -/

namespace Sys2Proof.Machine

@[simp] theorem readByte_nil (a : Nat) : readByte [] a = none := rfl
@[simp] theorem memRead_nil (i : Nat) : memRead [] i = none := rfl
@[simp] theorem cellsFrom_nil (i : Nat) : cellsFrom i [] = [] := rfl
@[simp] theorem risingFrom_nil (lo : Nat) : risingFrom lo [] = true := rfl

theorem risingFrom_cons (lo a : Nat) (v : Byte) (rest : Memory) :
    risingFrom lo ((a, v) :: rest) = true ↔ lo ≤ a ∧ risingFrom (a + 1) rest = true := by
  simp [risingFrom]

/-- No cell lies below the bound. -/
theorem readByte_below {lo a : Nat} {m : Memory} (h : risingFrom lo m = true) (ha : a < lo) : readByte m a = none := by
  induction m generalizing lo with
  | nil => rfl
  | cons c rest ih =>
    obtain ⟨b, v⟩ := c
    obtain ⟨hb, hr⟩ := (risingFrom_cons lo b v rest).1 h
    rw [readByte, if_neg (by omega)]
    exact ih hr (by omega)

/-- The cells of a row of pixels rise strictly from its first element. -/
theorem cellsFrom_rising (ps : List Pixel) {i lo : Nat} (h : lo ≤ 3 * i) : risingFrom lo (cellsFrom i ps) = true := by
  induction ps generalizing i lo with
  | nil => rfl
  | cons p rest ih =>
    simp only [cellsFrom, risingFrom_cons]
    exact ⟨h, by omega, by omega, ih (by omega)⟩

/-- The three bytes of the first element of a row of pixels. -/
theorem memRead_cellsFrom_head (p : Pixel) (rest : List Pixel) (i : Nat) : memRead (cellsFrom i (p :: rest)) i = some p := by
  simp [memRead, cellsFrom, readByte]

/-- The elements after the first are those of the rest of the row. -/
theorem memRead_cellsFrom_tail (p : Pixel) (rest : List Pixel) {i j : Nat} (h : i < j) :
    memRead (cellsFrom i (p :: rest)) j = memRead (cellsFrom (i + 1) rest) j := by
  have hskip : ∀ a, 3 * i + 2 < a → readByte (cellsFrom i (p :: rest)) a = readByte (cellsFrom (i + 1) rest) a := by
    intro a ha
    simp only [cellsFrom, readByte]
    rw [if_neg (by omega), if_neg (by omega), if_neg (by omega)]
  unfold memRead
  rw [hskip _ (by omega), hskip _ (by omega), hskip _ (by omega)]

/-- Presenting a request puts a buffer in canonical form on the pixel port when the host lent one. -/
theorem present_pixels_wf {p : Presented} {rest : List Presented} {s : State} (h : p.pixels.wf = true) :
    (present p rest s).pixels.wf = true := h

/-- A block reset leaves the lent buffer as it is. -/
theorem blockReset_pixels_wf {s : State} (h : s.pixels.wf = true) : (blockReset s).pixels.wf = true := h

/-- The memory of the state after reset lists nothing and is in canonical form. -/
theorem reset_pixels_wf : State.reset.pixels = [] ∧ State.reset.pixels.wf = true := ⟨rfl, rfl⟩

end Sys2Proof.Machine
end

