-- ==== Sys2Proof/Laws/Ops.lean ====
section
/-! SUPPORT. What each shared operation can do, once: the transport's three cases, the transitions of FRAME, STREAM and
FLUSH, and the shape of a command's meaning. -/

namespace Sys2Proof.Machine

theorem State.busy_eq_zero (s : State) : s.busy = 0 ↔ s.phase = .idle := by
  unfold State.busy; split <;> simp_all

theorem State.atEnd_iff (s : State) : s.atEnd = true ↔ s.row = s.h := decide_eq_true_iff

theorem State.atEnd_eq_false_iff (s : State) : s.atEnd = false ↔ s.row ≠ s.h := decide_eq_false_iff_not

@[simp] theorem delivered_ok (n : Nat) (b : List Byte) : delivered .ok n b = b := rfl
@[simp] theorem delivered_fail (n : Nat) (b : List Byte) : delivered .fail n b = b.take n := rfl

/-- A write is unanswered, or answered `ok`, or answered `fail`. -/
theorem txWrite_cases (b : List Byte) (f g : State → State) (s : State) :
    (s.answers = [] ∧ txWrite b f g s = s)
    ∨ (∃ rest, s.answers = .ok :: rest ∧ txWrite b f g s = f (recordWrite b .ok s))
    ∨ (∃ rest, s.answers = .fail :: rest ∧ txWrite b f g s = g (recordWrite b .fail s)) := by
  unfold txWrite
  split
  · exact .inl ⟨‹_›, rfl⟩
  · exact .inr (.inl ⟨_, ‹_›, rfl⟩)
  · exact .inr (.inr ⟨_, ‹_›, rfl⟩)

/-- What can follow FRAME: waiting, *frame-ok-control*, *frame-ok-blit*, *frame-fail*. -/
theorem frameTransition_cases (s : State) :
    (s.answers = [] ∧ frameTransition s = s)
    ∨ (∃ rest, s.answers = .ok :: rest ∧ s.cmd ≠ .displayBitmap
        ∧ frameTransition s = frameOkControl (recordWrite s.frameBytes .ok s))
    ∨ (∃ rest, s.answers = .ok :: rest ∧ s.cmd = .displayBitmap
        ∧ frameTransition s = frameOkBlit (recordWrite s.frameBytes .ok s))
    ∨ (∃ rest, s.answers = .fail :: rest ∧ frameTransition s = frameFail (recordWrite s.frameBytes .fail s)) := by
  unfold frameTransition
  obtain ⟨ha, h⟩ | ⟨rest, ha, h⟩ | ⟨rest, ha, h⟩ :=
    txWrite_cases s.frameBytes (if s.cmd = .displayBitmap then frameOkBlit else frameOkControl) frameFail s
  · exact .inl ⟨ha, h⟩
  · by_cases hc : s.cmd = .displayBitmap
    · exact .inr (.inr (.inl ⟨rest, ha, hc, by rw [h, if_pos hc]⟩))
    · exact .inr (.inl ⟨rest, ha, hc, by rw [h, if_neg hc]⟩)
  · exact .inr (.inr (.inr ⟨rest, ha, h⟩))

/-- What can follow FLUSH: waiting, *flush-ok-more*, *flush-ok-end*, *flush-fail*. -/
theorem flushTransition_cases (s : State) :
    (s.answers = [] ∧ flushTransition s = s)
    ∨ (∃ rest, s.answers = .ok :: rest ∧ s.atEnd = false ∧ flushTransition s = flushOkMore (recordWrite s.buf .ok s))
    ∨ (∃ rest, s.answers = .ok :: rest ∧ s.atEnd = true ∧ flushTransition s = flushOkEnd (recordWrite s.buf .ok s))
    ∨ (∃ rest, s.answers = .fail :: rest ∧ flushTransition s = flushFail (recordWrite s.buf .fail s)) := by
  unfold flushTransition
  obtain ⟨ha, h⟩ | ⟨rest, ha, h⟩ | ⟨rest, ha, h⟩ :=
    txWrite_cases s.buf (if s.atEnd = true then flushOkEnd else flushOkMore) flushFail s
  · exact .inl ⟨ha, h⟩
  · by_cases hc : s.atEnd = true
    · exact .inr (.inr (.inl ⟨rest, ha, hc, by rw [h, if_pos hc]⟩))
    · exact .inr (.inl ⟨rest, ha, by simpa using hc, by rw [h, if_neg hc]⟩)
  · exact .inr (.inr (.inr ⟨rest, ha, h⟩))

@[simp] theorem wordBytes_length (o : ByteOrder) (v : PixelWord) : (wordBytes o v).length = 2 := by cases o <;> rfl

@[simp] theorem encodeFrame_length (c : Byte) (x y ex ey : Coord) : (encodeFrame c x y ex ey).length = 6 := rfl

/-- `appendWord` goes to FLUSH when the chunk is full or the cursor is at the end, and stays otherwise; nothing but the
phase depends on which. -/
theorem appendWord_eq (v : PixelWord) (s : State) :
    appendWord v s = advanceCursor (appendBytes (wordBytes s.cfg.byteOrder v)
      (setPhase (if s.fill + 2 = s.cfg.chunkBytes ∨ s.nextRow = s.h then .flush else s.phase) s)) := by
  have hcond : ((advanceCursor (appendBytes (wordBytes s.cfg.byteOrder v) s)).fill
        = (advanceCursor (appendBytes (wordBytes s.cfg.byteOrder v) s)).cfg.chunkBytes
      ∨ (advanceCursor (appendBytes (wordBytes s.cfg.byteOrder v) s)).atEnd = true)
      ↔ (s.fill + 2 = s.cfg.chunkBytes ∨ s.nextRow = s.h) := by
    simp only [State.atEnd_iff, advanceCursor_fill, appendBytes_fill, wordBytes_length, advanceCursor_cfg,
      appendBytes_cfg, advanceCursor_row, advanceCursor_h, appendBytes_h]
    rfl
  unfold appendWord
  by_cases h : s.fill + 2 = s.cfg.chunkBytes ∨ s.nextRow = s.h
  · simp only [if_pos h, if_pos (hcond.2 h)]; rfl
  · simp only [if_neg h, if_neg (mt hcond.1 h)]; rfl

/-! `appendWord`: the phase, the cursor, BUF and FILL. -/

@[simp] theorem appendWord_phase (v : PixelWord) (s : State) :
    (appendWord v s).phase = if s.fill + 2 = s.cfg.chunkBytes ∨ s.nextRow = s.h then Phase.flush else s.phase := by rw [appendWord_eq]; rfl
@[simp] theorem appendWord_cmd (v : PixelWord) (s : State) :
    (appendWord v s).cmd = s.cmd := by rw [appendWord_eq]; rfl
@[simp] theorem appendWord_fx (v : PixelWord) (s : State) :
    (appendWord v s).fx = s.fx := by rw [appendWord_eq]; rfl
@[simp] theorem appendWord_fy (v : PixelWord) (s : State) :
    (appendWord v s).fy = s.fy := by rw [appendWord_eq]; rfl
@[simp] theorem appendWord_fex (v : PixelWord) (s : State) :
    (appendWord v s).fex = s.fex := by rw [appendWord_eq]; rfl
@[simp] theorem appendWord_fey (v : PixelWord) (s : State) :
    (appendWord v s).fey = s.fey := by rw [appendWord_eq]; rfl
@[simp] theorem appendWord_w (v : PixelWord) (s : State) :
    (appendWord v s).w = s.w := by rw [appendWord_eq]; rfl
@[simp] theorem appendWord_h (v : PixelWord) (s : State) :
    (appendWord v s).h = s.h := by rw [appendWord_eq]; rfl
@[simp] theorem appendWord_row (v : PixelWord) (s : State) :
    (appendWord v s).row = s.nextRow := by rw [appendWord_eq]; rfl
@[simp] theorem appendWord_col (v : PixelWord) (s : State) :
    (appendWord v s).col = s.nextCol := by rw [appendWord_eq]; rfl
@[simp] theorem appendWord_buf (v : PixelWord) (s : State) :
    (appendWord v s).buf = s.buf ++ wordBytes s.cfg.byteOrder v := by rw [appendWord_eq]; rfl
@[simp] theorem appendWord_fill (v : PixelWord) (s : State) :
    (appendWord v s).fill = s.fill + 2 := by rw [appendWord_eq]; simp
@[simp] theorem appendWord_result (v : PixelWord) (s : State) :
    (appendWord v s).result = s.result := by rw [appendWord_eq]; rfl
@[simp] theorem appendWord_cfg (v : PixelWord) (s : State) :
    (appendWord v s).cfg = s.cfg := by rw [appendWord_eq]; rfl
@[simp] theorem appendWord_requests (v : PixelWord) (s : State) :
    (appendWord v s).requests = s.requests := by rw [appendWord_eq]; rfl
@[simp] theorem appendWord_pixels (v : PixelWord) (s : State) :
    (appendWord v s).pixels = s.pixels := by rw [appendWord_eq]; rfl
@[simp] theorem appendWord_answers (v : PixelWord) (s : State) :
    (appendWord v s).answers = s.answers := by rw [appendWord_eq]; rfl
@[simp] theorem appendWord_rst (v : PixelWord) (s : State) :
    (appendWord v s).rst = s.rst := by rw [appendWord_eq]; rfl
@[simp] theorem appendWord_hist (v : PixelWord) (s : State) :
    (appendWord v s).hist = s.hist := by rw [appendWord_eq]; rfl
@[simp] theorem appendWord_wire (v : PixelWord) (s : State) :
    (appendWord v s).wire = s.wire := by rw [appendWord_eq]; rfl
@[simp] theorem appendWord_results (v : PixelWord) (s : State) :
    (appendWord v s).results = s.results := by rw [appendWord_eq]; rfl
@[simp] theorem appendWord_draws (v : PixelWord) (s : State) :
    (appendWord v s).draws = s.draws := by rw [appendWord_eq]; rfl

/-- What the block does on its own, phase by phase. -/
theorem advance_cases {s t : State} (h : advance s = .next t) :
    (s.phase = .idle ∧ t = s)
    ∨ (s.phase = .frame ∧ t = frameTransition s)
    ∨ (s.phase = .stream ∧ ∃ p, memRead s.pixels s.cursorIndex = some p ∧ t = appendWord (pixelWord p) s)
    ∨ (s.phase = .flush ∧ t = flushTransition s)
    ∨ (s.phase = .settle ∧ t = settleDone s) := by
  unfold advance at h
  split at h
  · exact .inl ⟨‹_›, by simpa using h.symm⟩
  · exact .inr (.inl ⟨‹_›, by simpa using h.symm⟩)
  · split at h
    · exact .inr (.inr (.inl ⟨‹_›, _, ‹_›, by simpa using h.symm⟩))
    · cases h
  · exact .inr (.inr (.inr (.inl ⟨‹_›, by simpa using h.symm⟩)))
  · exact .inr (.inr (.inr (.inr ⟨‹_›, by simpa using h.symm⟩)))

/-- What a command's meaning does: accept or reject when idle, the next transition when it is the operation in progress,
nothing when another operation is. -/
theorem runCommand_cases {i : Instr} {b : Bool} {load : State → State} {s t : State}
    (h : runCommand i b load s = .next t) :
    s.cfg.wf = true
    ∧ ((s.phase = .idle ∧ b = true ∧ t = accept load s)
      ∨ (s.phase = .idle ∧ b = false ∧ t = reject s)
      ∨ (s.phase ≠ .idle ∧ s.latched = i ∧ advance s = .next t)
      ∨ (s.phase ≠ .idle ∧ s.latched ≠ i ∧ t = s)) := by
  unfold runCommand at h
  split at h
  · refine ⟨‹_›, ?_⟩
    split at h
    · cases b
      · exact .inr (.inl ⟨‹_›, rfl, by simpa using h.symm⟩)
      · exact .inl ⟨‹_›, rfl, by simpa using h.symm⟩
    · split at h
      · exact .inr (.inr (.inl ⟨‹_›, ‹_›, h⟩))
      · exact .inr (.inr (.inr ⟨‹_›, ‹_›, by simpa using h.symm⟩))
  · cases h

end Sys2Proof.Machine
end

