-- ==== Sys2Proof/Laws/PerInstr.lean ====
section
/-! SUPPORT. What holds of every instruction as syntax, said once per constructor. -/

namespace Sys2Proof.Laws.EncodeLength

/-- A command's frame is 6 bytes, a data word 2 bytes, in either byte order (30_encoding.md R80). -/
def Statement (i : Instr) : Prop :=
  ∀ order : ByteOrder, (encode order i).length = match slotOf i with
    | .command => 6
    | .dataWord => 2

theorem reset : Statement .reset := fun _ => rfl
theorem clear : Statement .clear := fun _ => rfl
theorem screenOff : Statement .screenOff := fun _ => rfl
theorem screenOn : Statement .screenOn := fun _ => rfl
theorem setBrightness (level : Int) : Statement (.setBrightness level) := fun _ => rfl
theorem displayBitmap (x y w h : Int) : Statement (.displayBitmap x y w h) := fun _ => rfl
theorem pixel16 (r : BitVec 5) (g : BitVec 6) (b : BitVec 5) : Statement (.pixel16 r g b) := fun order => by cases order <;> rfl

end Sys2Proof.Laws.EncodeLength
end

