-- ==== Sys2Proof/Laws/Step.lean ====
section
/-! SUPPORT. What `exec` and `step` can do, once: every next state of a step is one of the transitions of
42_pixel_streamer.md R142 to R151, a wait, or a block reset. -/

namespace Sys2Proof.Machine

/-- What a request's acceptance loads into the latches (43_display_commands.md R160 to R165). -/
def loadOf : Instr → State → State
  | .reset => latch .reset 0 0 0 0
  | .clear => latch .clear 0 0 0 0
  | .screenOff => latch .screenOff 0 0 0 0
  | .screenOn => latch .screenOn 0 0 0 0
  | .setBrightness level => latch .setBrightness (BitVec.ofInt 10 level) 0 0 0
  | .displayBitmap x y w h => fun t => latchSize (BitVec.ofInt 11 w) (BitVec.ofInt 11 h)
      (latch .displayBitmap (BitVec.ofInt 10 x) (BitVec.ofInt 10 y)
        (BitVec.ofInt 10 (x + w - 1)) (BitVec.ofInt 10 (y + h - 1)) t)
  | .pixel16 _ _ _ => id

/-- Every command's meaning has the one shape; a data word's has its own. -/
theorem exec_eq (i : Instr) (s : State) :
    exec i s = match i with
      | .pixel16 r g b => execPixel16 r g b s
      | i => runCommand i (valid s.cfg i) (loadOf i) s := by
  cases i <;> rfl

/-- A request decodes to a command, never to a data word. -/
theorem slotOf_decodeRequest {c : Config} {q : Request} {i : Instr} (h : decodeRequest c q = some i) :
    slotOf i = .command := by
  unfold decodeRequest at h
  split at h <;> cases h <;> rfl

theorem exec_command (i : Instr) (hi : slotOf i = .command) (s : State) :
    exec i s = runCommand i (valid s.cfg i) (loadOf i) s := by
  cases i <;> first | rfl | cases hi

/-- The operation the latches hold is a command. -/
theorem slotOf_latched (s : State) : slotOf s.latched = .command := by
  unfold State.latched; cases s.cmd <;> rfl

/-- In a phase other than IDLE the latched operation takes the block's own transition. -/
theorem exec_latched (s : State) (hwf : s.cfg.wf = true) (hp : s.phase ≠ .idle) : exec s.latched s = advance s := by
  rw [exec_command _ (slotOf_latched s), runCommand, if_pos hwf, if_neg hp, if_pos rfl]

/-- The lanes of a word make the word again. -/
theorem wordOfLanes_extract (v : PixelWord) :
    wordOfLanes (v.extractLsb' 11 5) (v.extractLsb' 5 6) (v.extractLsb' 0 5) = v := by
  unfold wordOfLanes
  ext k hk
  simp only [BitVec.getElem_append, BitVec.getElem_extractLsb']
  split
  · simp [BitVec.getLsbD_eq_getElem, hk]
  · split <;> (rw [← BitVec.getLsbD_eq_getElem hk]; congr 1; omega)

/-- In STREAM the data word of a pixel appends that pixel's word. -/
theorem exec_instrOfWord (v : PixelWord) (s : State) (hwf : s.cfg.wf = true) (hp : s.phase = .stream) :
    exec (instrOfWord v) s = .next (appendWord v s) := by
  show execPixel16 _ _ _ s = _
  rw [execPixel16, if_pos hwf, if_pos hp, wordOfLanes_extract]

/-- Everything a step can do when it answers a next state. -/
inductive StepTo (s : State) : State → Prop
  | reset (hr : s.rst = true) : StepTo s (blockReset s)
  | rest (hr : s.rst = false) (hp : s.phase = .idle) (hq : s.requests = []) : StepTo s s
  | unknown (hr : s.rst = false) (hp : s.phase = .idle) {p : Presented} {rest : List Presented}
      (hq : s.requests = p :: rest) (hd : decodeRequest s.cfg p.request = none) : StepTo s (reject (present p rest s))
  | reject (hr : s.rst = false) (hp : s.phase = .idle) {p : Presented} {rest : List Presented}
      (hq : s.requests = p :: rest) {i : Instr} (hd : decodeRequest s.cfg p.request = some i)
      (hv : valid s.cfg i = false) : StepTo s (reject (present p rest s))
  | accept (hr : s.rst = false) (hp : s.phase = .idle) {p : Presented} {rest : List Presented}
      (hq : s.requests = p :: rest) {i : Instr} (hd : decodeRequest s.cfg p.request = some i)
      (hv : valid s.cfg i = true) : StepTo s (accept (loadOf i) (present p rest s))
  | frameWait (hr : s.rst = false) (hp : s.phase = .frame) (ha : s.answers = []) : StepTo s s
  | frameOkControl (hr : s.rst = false) (hp : s.phase = .frame) {rest : List Answer} (ha : s.answers = .ok :: rest)
      (hc : s.cmd ≠ .displayBitmap) : StepTo s (frameOkControl (recordWrite s.frameBytes .ok s))
  | frameOkBlit (hr : s.rst = false) (hp : s.phase = .frame) {rest : List Answer} (ha : s.answers = .ok :: rest)
      (hc : s.cmd = .displayBitmap) : StepTo s (frameOkBlit (recordWrite s.frameBytes .ok s))
  | frameFail (hr : s.rst = false) (hp : s.phase = .frame) {rest : List Answer} (ha : s.answers = .fail :: rest) :
      StepTo s (frameFail (recordWrite s.frameBytes .fail s))
  | pixel (hr : s.rst = false) (hp : s.phase = .stream) {p : Pixel} (hm : memRead s.pixels s.cursorIndex = some p) :
      StepTo s (appendWord (pixelWord p) s)
  | flushWait (hr : s.rst = false) (hp : s.phase = .flush) (ha : s.answers = []) : StepTo s s
  | flushOkMore (hr : s.rst = false) (hp : s.phase = .flush) {rest : List Answer} (ha : s.answers = .ok :: rest)
      (he : s.atEnd = false) : StepTo s (flushOkMore (recordWrite s.buf .ok s))
  | flushOkEnd (hr : s.rst = false) (hp : s.phase = .flush) {rest : List Answer} (ha : s.answers = .ok :: rest)
      (he : s.atEnd = true) : StepTo s (flushOkEnd (recordWrite s.buf .ok s))
  | flushFail (hr : s.rst = false) (hp : s.phase = .flush) {rest : List Answer} (ha : s.answers = .fail :: rest) :
      StepTo s (flushFail (recordWrite s.buf .fail s))
  | settleDone (hr : s.rst = false) (hp : s.phase = .settle) : StepTo s (settleDone s)

/-- The block's own transition, as a case of `StepTo`. -/
theorem stepTo_of_advance {s t : State} (hr : s.rst = false) (hp : s.phase ≠ .idle) (h : advance s = .next t) :
    StepTo s t := by
  obtain ⟨hi, -⟩ | ⟨hf, rfl⟩ | ⟨hs, p, hm, rfl⟩ | ⟨hf, rfl⟩ | ⟨hs, rfl⟩ := advance_cases h
  · exact absurd hi hp
  · obtain ⟨ha, e⟩ | ⟨_, ha, hc, e⟩ | ⟨_, ha, hc, e⟩ | ⟨_, ha, e⟩ := frameTransition_cases s <;> rw [e]
    · exact .frameWait hr hf ha
    · exact .frameOkControl hr hf ha hc
    · exact .frameOkBlit hr hf ha hc
    · exact .frameFail hr hf ha
  · exact .pixel hr hs hm
  · obtain ⟨ha, e⟩ | ⟨_, ha, hc, e⟩ | ⟨_, ha, hc, e⟩ | ⟨_, ha, e⟩ := flushTransition_cases s <;> rw [e]
    · exact .flushWait hr hf ha
    · exact .flushOkMore hr hf ha hc
    · exact .flushOkEnd hr hf ha hc
    · exact .flushFail hr hf ha
  · exact .settleDone hr hs

/-- In a phase other than IDLE, without reset, a step is the block's own transition. -/
theorem step_busy (s : State) (hwf : s.cfg.wf = true) (hr : s.rst = false) (hp : s.phase ≠ .idle) :
    step s = advance s := by
  unfold step
  rw [if_pos hwf, if_neg (by simp [hr])]
  cases h : s.phase with
  | idle => exact absurd h hp
  | frame => simp only [fetch, h]; exact exec_latched s hwf hp
  | stream =>
    cases hm : memRead s.pixels s.cursorIndex with
    | none => simp only [fetch, h, hm, advance]
    | some p => simp only [fetch, h, hm, advance]; exact exec_instrOfWord _ s hwf h
  | flush => simp only [fetch, h]; exact exec_latched s hwf hp
  | settle => simp only [fetch, h]; exact exec_latched s hwf hp

/-- An idle block with no request stays as it is. -/
theorem step_rest (s : State) (hwf : s.cfg.wf = true) (hr : s.rst = false) (hp : s.phase = .idle)
    (hq : s.requests = []) : step s = .next s := by
  simp [step, hwf, hr, fetch, hp, hq]

/-- An idle block executes the request on the port. -/
theorem step_request (s : State) (hwf : s.cfg.wf = true) (hr : s.rst = false) (hp : s.phase = .idle)
    {p : Presented} {rest : List Presented} (hq : s.requests = p :: rest) {i : Instr}
    (hd : decodeRequest s.cfg p.request = some i) : step s = exec i (present p rest s) := by
  simp [step, hwf, hr, fetch, hp, hq, hd]

/-- An idle block rejects a request that selects no operation. -/
theorem step_unknown (s : State) (hwf : s.cfg.wf = true) (hr : s.rst = false) (hp : s.phase = .idle)
    {p : Presented} {rest : List Presented} (hq : s.requests = p :: rest)
    (hd : decodeRequest s.cfg p.request = none) : step s = .next (reject (present p rest s)) := by
  simp [step, hwf, hr, fetch, hp, hq, hd]

/-- In IDLE a command is accepted when valid and rejected otherwise. -/
theorem exec_idle (i : Instr) (hi : slotOf i = .command) (s : State) (hwf : s.cfg.wf = true) (hp : s.phase = .idle) :
    exec i s = .next (if valid s.cfg i = true then accept (loadOf i) s else reject s) := by
  rw [exec_command i hi, runCommand, if_pos hwf, if_pos hp]

/-- A step that answers a next state had a well-formed configuration, and did one of the things `StepTo` lists. -/
theorem step_cases {s t : State} (h : step s = .next t) : s.cfg.wf = true ∧ StepTo s t := by
  have hwf : s.cfg.wf = true := by
    by_contra hn
    simp [step, hn] at h
  refine ⟨hwf, ?_⟩
  cases hr : s.rst with
  | true =>
    simp only [step, hwf, hr, if_true] at h
    cases h; exact .reset hr
  | false =>
    by_cases hp : s.phase = .idle
    · cases hq : s.requests with
      | nil =>
        rw [step_rest s hwf hr hp hq] at h
        cases h; exact .rest hr hp hq
      | cons p rest =>
        cases hd : decodeRequest s.cfg p.request with
        | none =>
          rw [step_unknown s hwf hr hp hq hd] at h
          cases h; exact .unknown hr hp hq hd
        | some i =>
          rw [step_request s hwf hr hp hq hd,
            exec_idle i (slotOf_decodeRequest hd) (present p rest s) hwf hp] at h
          by_cases hv : valid s.cfg i = true
          · rw [if_pos (by simpa using hv)] at h
            cases h; exact .accept hr hp hq hd hv
          · rw [if_neg (by simpa using hv)] at h
            cases h; exact .reject hr hp hq hd (by simpa using hv)
    · rw [step_busy s hwf hr hp] at h
      exact stepTo_of_advance hr hp h

end Sys2Proof.Machine
end

