-- ==== Sys2Proof/Laws/Run.lean ====
section
/-! SUPPORT. Runs of several steps: one step and the rest, and runs one after the other. -/

namespace Sys2Proof.Machine

@[simp] theorem run_zero (s : State) : run 0 s = .next s := rfl

theorem run_succ {s t : State} (h : step s = .next t) (n : Nat) : run (n + 1) s = run n t := by
  have h' : Sys2Proof.core.step s = .next t := h
  simp only [run, Host.Core.run, h']
  rfl

theorem run_one {s t : State} (h : step s = .next t) : run 1 s = .next t := run_succ h 0

/-- A run that answers a next state begins with a step that does. -/
theorem step_of_run {n : Nat} {s t : State} (h : run (n + 1) s = .next t) : ∃ u, step s = .next u ∧ run n u = .next t := by
  cases hs : step s with
  | next u => exact ⟨u, rfl, by rwa [run_succ hs] at h⟩
  | fault r =>
    have h' : Sys2Proof.core.step s = .fault r := hs
    simp only [run, Host.Core.run, h'] at h
    cases h
  | refused r =>
    have h' : Sys2Proof.core.step s = .refused r := hs
    simp only [run, Host.Core.run, h'] at h
    cases h

/-- Runs one after the other. -/
theorem run_add {a b : Nat} {s t : State} (h : run a s = .next t) : run (a + b) s = run b t := by
  induction a generalizing s with
  | zero => cases h; rw [Nat.zero_add]
  | succ a ih =>
    obtain ⟨u, hu, h⟩ := step_of_run h
    rw [Nat.add_right_comm, run_succ hu]
    exact ih h

end Sys2Proof.Machine
end

