-- ==== Sys2Proof/Tests/Slice0.lean ====
section
/-! SUPPORT. Tests: ill-formed terms that WellFormed refuses; words written out from the spec's encodings and what they
decode to; one step or meaning of each instruction against the vectors of 95_test_vectors.md; and, for every statement
of Certificates/Slice0/Obligations.lean that has hypotheses, a state and operands that meet them all. -/

namespace Sys2Proof.Tests

open Sys2Proof Sys2Proof.Machine Sys2Proof.Safety

/-! Helpers: configurations of 95_test_vectors.md, small states, and what to look at in an outcome. -/

/-- Configuration K4: 1 × 3, two pixels a chunk. -/
def k4 : Config := { resetConfig with displayWidth := 1, displayHeight := 3, chunkMult := 4 }

/-- Configuration K5, the largest well-formed display. -/
def k5 : Config := { resetConfig with displayWidth := 1024, displayHeight := 1024 }

/-- A configuration that 00_scope.md R11 shuts out: CHUNK_BYTES is odd. -/
def kBad : Config := { resetConfig with displayWidth := 1, chunkMult := 1 }

/-- The three pixels of program P6. -/
def p6Pixels : List Pixel := [⟨255, 0, 0⟩, ⟨0, 255, 0⟩, ⟨0, 0, 255⟩]

/-- The request of program P6. -/
def p6 : Presented := { request := { cmd := 197, x := 0, y := 0, w := 1, h := 3 }, pixels := bufferOf p6Pixels }

/-- A request without a pixel buffer. -/
def bare (cmd : Byte) (x : Int) : Presented := { request := { cmd := cmd, x := x, y := 7, w := -1, h := 9 }, pixels := [] }

/-- An idle block with requests and answers to come. -/
def idleAt (c : Config) (requests : List Presented) (answers : List Answer) : State :=
  { State.reset with cfg := c, requests := requests, answers := answers }

/-- A block in FRAME with a control command or SetBrightness latched. -/
def frameAt (cmd : Command) (fx : Coord) (answers : List Answer) : State :=
  { State.reset with phase := .frame, cmd := cmd, fx := fx, answers := answers }

/-- The block of program P6 in a phase of its blit, with the cursor at a row and a buffer. -/
def blitAt (phase : Phase) (row : Extent) (buf : List Byte) (answers : List Answer) : State :=
  { State.reset with
    cfg := k4, phase := phase, cmd := .displayBitmap, fey := 2, w := 1, h := 3, row := row, buf := buf, fill := buf.length
    pixels := bufferOf p6Pixels, answers := answers
    hist := [{ bytes := [0x00, 0x00, 0x00, 0x00, 0x02, 0xC5], outcome := .ok }]
    wire := [0x00, 0x00, 0x00, 0x00, 0x02, 0xC5] }

/-- The next state, where there is one. -/
def nextOf (o : Host.Outcome State Fault Refusal) : Option State :=
  match o with
  | .next s => some s
  | .fault _ => none
  | .refused _ => none

/-- Phase, RESULT and HIST of the next state, where there is one. -/
def seen (o : Host.Outcome State Fault Refusal) : Option (Phase × Result × List Write) :=
  (nextOf o).map fun s => (s.phase, s.result, s.hist)

/-! WellFormed refuses. -/

theorem test_level_below_zero_is_ill_formed : (Instr.setBrightness (-1)).wellFormed = false := by decide
theorem test_level_256_is_ill_formed : (Instr.setBrightness 256).wellFormed = false := by decide
theorem test_empty_width_is_ill_formed : (Instr.displayBitmap 0 0 0 5).wellFormed = false := by decide
theorem test_empty_height_is_ill_formed : (Instr.displayBitmap 0 0 5 0).wellFormed = false := by decide
theorem test_negative_x_is_ill_formed : (Instr.displayBitmap (-1) 0 1 1).wellFormed = false := by decide
theorem test_negative_y_is_ill_formed : (Instr.displayBitmap 0 (-1) 1 1).wellFormed = false := by decide
theorem test_end_column_1024_is_ill_formed : (Instr.displayBitmap 1023 0 2 1).wellFormed = false := by decide
theorem test_end_row_1024_is_ill_formed : (Instr.displayBitmap 0 1 1 1024).wellFormed = false := by decide

/-! Configurations (00_scope.md R11). -/

theorem test_configs_well_formed : resetConfig.wf = true ∧ k4.wf = true ∧ k5.wf = true := by decide
theorem test_odd_chunk_is_ill_formed : kBad.wf = false := by decide
theorem test_config_bounds_are_checked :
    ({ k4 with displayWidth := 0 } : Config).wf = false ∧ ({ k4 with displayWidth := 1026 } : Config).wf = false
    ∧ ({ k4 with displayHeight := 0 } : Config).wf = false ∧ ({ k4 with displayHeight := 1025 } : Config).wf = false
    ∧ ({ k4 with chunkMult := 0 } : Config).wf = false ∧ ({ k4 with settleDelayMs := -1 } : Config).wf = false
    ∧ ({ k4 with opw := 11 } : Config).wf = false := by decide

/-! Words written out from the spec decode to what they stand for: a frame bit by bit as `F` of 30_encoding.md R82
(10 bits x, 10 bits y, 10 bits ex, 10 bits ey, 8 bits opcode), a data word as the lanes of R89. -/

/-- V20: Reset, opcode 101 = 0110_0101. -/
theorem test_decode_reset_word : decodeTableWord 48
    0b0000000000_0000000000_0000000000_0000000000_01100101 = some .reset := by decide
/-- V21: Clear, opcode 102 = 0110_0110. -/
theorem test_decode_clear_word : decodeTableWord 48
    0b0000000000_0000000000_0000000000_0000000000_01100110 = some .clear := by decide
/-- V22: ScreenOff, opcode 108 = 0110_1100. -/
theorem test_decode_screen_off_word : decodeTableWord 48
    0b0000000000_0000000000_0000000000_0000000000_01101100 = some .screenOff := by decide
/-- V23: ScreenOn, opcode 109 = 0110_1101. -/
theorem test_decode_screen_on_word : decodeTableWord 48
    0b0000000000_0000000000_0000000000_0000000000_01101101 = some .screenOn := by decide
/-- V35: SetBrightness 100, x = 0001100100, opcode 110 = 0110_1110. -/
theorem test_decode_set_brightness_word : decodeTableWord 48
    0b0001100100_0000000000_0000000000_0000000000_01101110 = some (.setBrightness 100) := by decide
/-- V19n: DisplayBitmap x = 10, y = 40, ex = 149, ey = 69, opcode 197 = 1100_0101. -/
theorem test_decode_display_bitmap_word : decodeTableWord 48
    0b0000001010_0000101000_0010010101_0001000101_11000101 = some (.displayBitmap 10 40 140 30) := by decide
/-- V13d: the word of (200, 100, 50): 11001 011001 00110. -/
theorem test_decode_pixel_word : decodeTableWord 16 0b11001_011001_00110 = some (.pixel16 25 25 6) := by decide

/-- V19m as bytes: alternating bits, ex and ey equal to x and y, so one pixel. -/
theorem test_decode_alternating_fields :
    (decode .le .command [0xAA, 0x95, 0x5A, 0xA9, 0x55, 0xC5]).toOption = some (.displayBitmap 682 341 1 1, []) := by decide
/-- V13b in both byte orders, with a byte after it left over. -/
theorem test_decode_pixel_bytes :
    (decode .le .dataWord [0xAA, 0x11, 0x77]).toOption = some (.pixel16 2 13 10, [0x77])
    ∧ (decode .be .dataWord [0x11, 0xAA]).toOption = some (.pixel16 2 13 10, []) := by decide

/-- Why a decoding is refused. -/
def refusalOf (r : Except DecodeError (Instr × List Byte)) : Option DecodeError :=
  match r with
  | .ok _ => none
  | .error e => some e

/-- 30_encoding.md R93 and R94: what the block never emits, each by its name. -/
theorem test_decoder_refuses_by_name :
    refusalOf (decode .le .command [0, 0, 0, 0, 0, 0x67]) = some .unknownOpcode
    ∧ refusalOf (decode .le .command [0, 0x40, 0, 0, 0, 0x65]) = some .nonZeroRectangle
    ∧ refusalOf (decode .le .command [0, 0, 0, 0, 1, 0x6E]) = some .nonZeroRectangle
    ∧ refusalOf (decode .le .command [0x40, 0, 0, 0, 0, 0x6E]) = some .levelTooWide
    ∧ refusalOf (decode .le .command [0, 0x40, 0, 0, 0, 0xC5]) = some .invertedRectangle
    ∧ refusalOf (decode .le .command [0, 0, 0, 0, 0x65]) = some .tooShort
    ∧ refusalOf (decode .le .dataWord [0x65]) = some .tooShort := by decide

/-- The stream of program P1: Clear, DisplayBitmap and its four data words. -/
theorem test_decode_stream_p1 :
    decodeStream .le [0x00, 0x00, 0x00, 0x00, 0x00, 0x66, 0x02, 0x82, 0x80, 0x2C, 0x29, 0xC5,
        0x00, 0xF8, 0xE0, 0x07, 0x1F, 0x00, 0x26, 0xCB]
      = some [.clear, .displayBitmap 10 40 2 2, .pixel16 31 0 0, .pixel16 0 63 0, .pixel16 0 0 31, .pixel16 25 25 6] := by
  decide

/-! The encoder and the converter (V14 to V19q, V39; V7, V13c). -/

theorem test_encode_frames :
    encode .le (.displayBitmap 100 200 201 201) = [0x19, 0x0C, 0x84, 0xB1, 0x90, 0xC5]
    ∧ encode .be (.displayBitmap 319 479 1 1) = [0x4F, 0xDD, 0xF4, 0xFD, 0xDF, 0xC5]
    ∧ encode .le (.setBrightness 255) = [0x3F, 0xC0, 0x00, 0x00, 0x00, 0x6E] := by decide
theorem test_frame_fields_tile :
    encodeFrame 0xC5 1023 0 0 0 = [0xFF, 0xC0, 0x00, 0x00, 0x00, 0xC5]
    ∧ encodeFrame 0xC5 0 1023 0 0 = [0x00, 0x3F, 0xF0, 0x00, 0x00, 0xC5]
    ∧ encodeFrame 0xC5 0 0 1023 0 = [0x00, 0x00, 0x0F, 0xFC, 0x00, 0xC5]
    ∧ encodeFrame 0xC5 0 0 0 1023 = [0x00, 0x00, 0x00, 0x03, 0xFF, 0xC5] := by decide
theorem test_converter : toRGB565 8 4 8 = 0x0821 ∧ toRGB565 0xAB 0xCD 0xEF = 0xAE7D ∧ toRGB565 7 3 7 = 0 := by decide
theorem test_word_bytes : wordBytes .le 0xCB26 = [0x26, 0xCB] ∧ wordBytes .be 0xCB26 = [0xCB, 0x26] := by decide

/-! One step or one meaning. -/

/-- The frame of a control command, answered `ok` (V20 to V23). -/
theorem test_reset_sends_frame : seen (exec .reset (frameAt .reset 0 [.ok]))
    = some (.idle, .ok, [{ bytes := [0, 0, 0, 0, 0, 0x65], outcome := .ok }]) := by decide
theorem test_clear_sends_frame : seen (exec .clear (frameAt .clear 0 [.ok]))
    = some (.idle, .ok, [{ bytes := [0, 0, 0, 0, 0, 0x66], outcome := .ok }]) := by decide
theorem test_screen_off_sends_frame : seen (exec .screenOff (frameAt .screenOff 0 [.ok]))
    = some (.idle, .ok, [{ bytes := [0, 0, 0, 0, 0, 0x6C], outcome := .ok }]) := by decide
/-- Answered `fail`: IoError, one write. -/
theorem test_screen_on_fails : seen (exec .screenOn (frameAt .screenOn 0 [.fail]))
    = some (.idle, .ioError, [{ bytes := [0, 0, 0, 0, 0, 0x6D], outcome := .fail }]) := by decide
/-- V38. -/
theorem test_brightness_sends_level : seen (exec (.setBrightness 254) (frameAt .setBrightness 254 [.ok]))
    = some (.idle, .ok, [{ bytes := [0x3F, 0x80, 0, 0, 0, 0x6E], outcome := .ok }]) := by decide
/-- V39c, program P2: rejected with no write. -/
theorem test_brightness_300_rejected : seen (step (idleAt resetConfig [bare 110 300] [.ok]))
    = some (.idle, .invalidArgument, []) := by decide
/-- V65 is accepted with ex = 319; V66 to V75 name what is rejected. -/
theorem test_blit_edge_accepted :
    (nextOf (exec (.displayBitmap 318 0 2 1) State.reset)).map (fun s => (s.phase, s.fx, s.fex, s.w))
      = some (.frame, 318, 319, 2) := by decide
theorem test_blit_outside_rejected :
    ([(0, 0, 0, 5), (0, 0, 5, 0), (-1, 0, 1, 1), (0, -1, 1, 1), (319, 0, 2, 1), (0, 479, 1, 2), (1024, 0, 1, 1),
      (2147483647, 0, 2, 1)] : List (Int × Int × Int × Int)).all (fun q =>
        seen (exec (.displayBitmap q.1 q.2.1 q.2.2.1 q.2.2.2) State.reset) == some (.idle, .invalidArgument, [])) = true := by
  decide
/-- Program P6, step 4: the second pixel fills the chunk. -/
theorem test_pixel_fills_chunk :
    (nextOf (step (blitAt .stream 1 [0x00, 0xF8] []))).map (fun s => (s.phase, s.row, s.col, s.buf, s.fill))
      = some (.flush, 2, 0, [0x00, 0xF8, 0xE0, 0x07], 4) := by decide
/-- Program P6, step 3, in BE: the data word goes high byte first. -/
theorem test_pixel16_big_endian :
    (nextOf (exec (.pixel16 31 0 0) { blitAt .stream 0 [] [] with cfg := { k4 with byteOrder := .be } })).map
      (fun s => (s.phase, s.row, s.buf)) = some (.stream, 1, [0xF8, 0x00]) := by decide
/-- A request whose `req_cmd` is 103 (V82): rejected, and gone from the port. -/
theorem test_unknown_command_rejected :
    (nextOf (step (idleAt resetConfig [bare 103 0] []))).map (fun s => (s.result, s.hist, s.requests))
      = some (.invalidArgument, [], []) := by decide
/-- The host's word of SetBrightness 255 is the next thing `step` runs, and so is its data word. -/
theorem test_fetch_word :
    (nextOf (step (State.reset.withFetchWord 48 0x3FC00000006E))).map (fun s => (s.phase, s.cmd, s.fx))
      = some (.frame, .setBrightness, 255)
    ∧ (nextOf (step (State.reset.withFetchWord 16 0xCB26))).map (·.buf) = some [0x26, 0xCB] := by decide

/-! Witnesses: for each statement with hypotheses, a case that meets them. -/

theorem witness_DecodeInvertsEncode :
    (Instr.displayBitmap 0 0 1024 1024).wellFormed = true ∧ (Instr.displayBitmap 1023 1023 1 1).wellFormed = true
    ∧ (Instr.setBrightness 0).wellFormed = true ∧ (Instr.setBrightness 255).wellFormed = true
    ∧ (Instr.pixel16 31 63 31).wellFormed = true := by decide

theorem witness_EncodeInvertsDecode :
    decode .le .command [0x4F, 0xDD, 0xF4, 0xFD, 0xDF, 0xC5, 0x1F, 0x00] = .ok (.displayBitmap 319 479 1 1, [0x1F, 0x00])
    ∧ decode .be .dataWord [0xFF, 0xFF] = .ok (.pixel16 31 63 31, []) := ⟨rfl, rfl⟩

theorem witness_FramesAndOperandsCorrespond : encodeFrame 0xC5 1023 0 1023 0 = encodeFrame 0xC5 1023 0 1023 0 := rfl

theorem witness_EncoderDomainIsExact :
    (encodeChecked 255 1023 1023 1023 1023).isSome = true ∧ encodeChecked 255 1024 0 0 0 = none
    ∧ encodeChecked 255 0 1024 0 0 = none ∧ encodeChecked 255 0 0 1024 0 = none ∧ encodeChecked 255 0 0 0 1024 = none
    ∧ encodeChecked 256 0 0 0 0 = none := by decide

theorem witness_OperationStreamDecodes :
    k4.wf = true ∧ valid k4 (.displayBitmap 0 0 1 3) = true ∧ valid k4 .clear = true := by decide

theorem witness_ConverterTruncates : (7 : Byte) ≤ 8 ∧ (3 : Byte) ≤ 4 ∧ (255 : Byte) ≤ 255 := by decide

theorem witness_WordBytesFollowTheOrder :
    (0xFFFF : PixelWord).extractLsb' 0 8 = (0xFFFF : PixelWord).extractLsb' 8 8
    ∧ wordBytes .le 0xCB26 = [0x26, 0xCB] ∧ wordBytes .le 0xCB26 ≠ wordBytes .be 0xCB26 := by decide

theorem witness_ControlCommandsAreAccepted : State.reset.cfg.wf = true ∧ State.reset.phase = .idle := by decide

/-- The FRAME states of the four control commands, with either answer. -/
theorem witness_ControlCommandsSendTheirFrame :
    ∀ cmd ∈ [Command.reset, .clear, .screenOff, .screenOn], ∀ a ∈ [Answer.ok, .fail],
      (frameAt cmd 0 [a]).cfg.wf = true ∧ (frameAt cmd 0 [a]).phase = .frame ∧ (frameAt cmd 0 [a]).answers = a :: []
      ∧ (frameAt cmd 0 [a]).cmd = cmd ∧ (frameAt cmd 0 [a]).fx = 0 ∧ (frameAt cmd 0 [a]).fy = 0
      ∧ (frameAt cmd 0 [a]).fex = 0 ∧ (frameAt cmd 0 [a]).fey = 0 := by decide

/-- The same states with the answer `fail`. -/
theorem witness_ControlCommandsFailWithIoError :
    ∀ cmd ∈ [Command.reset, .clear, .screenOff, .screenOn],
      (frameAt cmd 0 [.fail]).cfg.wf = true ∧ (frameAt cmd 0 [.fail]).phase = .frame
      ∧ (frameAt cmd 0 [.fail]).answers = .fail :: [] ∧ (frameAt cmd 0 [.fail]).cmd = cmd
      ∧ (frameAt cmd 0 [.fail]).fx = 0 ∧ (frameAt cmd 0 [.fail]).fy = 0
      ∧ (frameAt cmd 0 [.fail]).fex = 0 ∧ (frameAt cmd 0 [.fail]).fey = 0 := by decide

/-- Both clauses, at the levels where they meet. -/
theorem witness_BrightnessIsAcceptedInRange :
    State.reset.cfg.wf = true ∧ State.reset.phase = .idle
    ∧ (0 ≤ (0 : Int) ∧ (0 : Int) ≤ 255) ∧ (0 ≤ (255 : Int) ∧ (255 : Int) ≤ 255)
    ∧ ¬ (0 ≤ (256 : Int) ∧ (256 : Int) ≤ 255) ∧ ¬ (0 ≤ (-1 : Int) ∧ (-1 : Int) ≤ 255) := by decide

theorem witness_BrightnessSendsItsLevel :
    ∀ level ∈ [0, 255], ∀ a ∈ [Answer.ok, .fail],
      (frameAt .setBrightness (BitVec.ofNat 10 level) [a]).cfg.wf = true
      ∧ (frameAt .setBrightness (BitVec.ofNat 10 level) [a]).phase = .frame
      ∧ (frameAt .setBrightness (BitVec.ofNat 10 level) [a]).cmd = .setBrightness
      ∧ level ≤ 255 ∧ (frameAt .setBrightness (BitVec.ofNat 10 level) [a]).fx.toNat = level
      ∧ (frameAt .setBrightness (BitVec.ofNat 10 level) [a]).fy = 0
      ∧ (frameAt .setBrightness (BitVec.ofNat 10 level) [a]).fex = 0
      ∧ (frameAt .setBrightness (BitVec.ofNat 10 level) [a]).fey = 0
      ∧ (frameAt .setBrightness (BitVec.ofNat 10 level) [a]).answers = a :: [] := by decide

/-- Both clauses at the last column and row of K5, and one past them. -/
theorem witness_BlitIsAcceptedInsideTheDisplay :
    (idleAt k5 [] []).cfg.wf = true ∧ (idleAt k5 [] []).phase = .idle
    ∧ ((0 : Int) < 1024 ∧ (0 : Int) < 1024 ∧ 0 ≤ (0 : Int) ∧ 0 ≤ (0 : Int)
        ∧ (0 : Int) + 1024 - 1 < k5.displayWidth ∧ (0 : Int) + 1024 - 1 < k5.displayHeight)
    ∧ ¬ ((1023 : Int) + 2 - 1 < k5.displayWidth) := by decide

theorem witness_BlitFrameBeginsTheStream :
    ∀ a ∈ [Answer.ok, .fail], (blitAt .frame 0 [] [a]).cfg.wf = true ∧ (blitAt .frame 0 [] [a]).phase = .frame
      ∧ (blitAt .frame 0 [] [a]).cmd = .displayBitmap ∧ (blitAt .frame 0 [] [a]).answers = a :: [] := by decide

/-- A display of two columns, in STREAM, so that the cursor can stay in its row. -/
def twoColumns (col : Extent) (buf : List Byte) : State :=
  { blitAt .stream 0 buf [] with cfg := { k4 with displayWidth := 2, chunkMult := 2 }, w := 2, fex := 1, col := col }

/-- Every clause: inside a row, at its end, chunk full, cursor at the end, neither. -/
theorem witness_DataWordIsAppended :
    (twoColumns 0 []).cfg.wf = true ∧ (twoColumns 0 []).phase = .stream
    ∧ (twoColumns 0 []).col.toNat + 1 < (twoColumns 0 []).w.toNat
    ∧ ¬ (twoColumns 1 [0, 0]).col.toNat + 1 < (twoColumns 1 [0, 0]).w.toNat
    ∧ (nextOf (exec (.pixel16 0 0 0) (twoColumns 0 []))).map (·.phase) = some .stream
    ∧ (nextOf (exec (.pixel16 0 0 0) (twoColumns 1 [0, 0]))).map (·.phase) = some .flush
    ∧ (nextOf (exec (.pixel16 0 0 0) (blitAt .stream 2 [] []))).map (·.phase) = some .flush := by decide

/-- Both clauses: the last element of the buffer, and a buffer that ends before the cursor. -/
theorem witness_PixelIsReadConvertedAndAppended :
    (blitAt .stream 2 [] []).cfg.wf = true ∧ (blitAt .stream 2 [] []).phase = .stream
    ∧ (blitAt .stream 2 [] []).rst = false ∧ (blitAt .stream 2 [] []).cmd = .displayBitmap
    ∧ memRead (blitAt .stream 2 [] []).pixels
        ((blitAt .stream 2 [] []).row.toNat * (blitAt .stream 2 [] []).w.toNat + (blitAt .stream 2 [] []).col.toNat)
      = some ⟨0, 0, 255⟩
    ∧ memRead (blitAt .stream 3 [] []).pixels
        ((blitAt .stream 3 [] []).row.toNat * (blitAt .stream 3 [] []).w.toNat + (blitAt .stream 3 [] []).col.toNat)
      = none := by decide

/-- The three clauses: the stream goes on, the stream has ended, the write fails. -/
theorem witness_ChunkIsFlushed :
    (blitAt .flush 2 [0, 0xF8, 0xE0, 7] [.ok]).cfg.wf = true ∧ (blitAt .flush 2 [0, 0xF8, 0xE0, 7] [.ok]).phase = .flush
    ∧ (blitAt .flush 2 [0, 0xF8, 0xE0, 7] [.ok]).answers = .ok :: []
    ∧ (blitAt .flush 2 [0, 0xF8, 0xE0, 7] [.ok]).row ≠ (blitAt .flush 2 [0, 0xF8, 0xE0, 7] [.ok]).h
    ∧ (blitAt .flush 3 [0x1F, 0] [.ok]).row = (blitAt .flush 3 [0x1F, 0] [.ok]).h
    ∧ (blitAt .flush 3 [0x1F, 0] [.fail]).answers = .fail :: []
    ∧ (blitAt .flush 3 [0x1F, 0] [.fail]).cmd = .displayBitmap ∧ (blitAt .flush 3 [0x1F, 0] [.fail]).rst = false := by decide

theorem witness_SettleReportsOk :
    (blitAt .settle 3 [] []).cfg.wf = true ∧ (blitAt .settle 3 [] []).phase = .settle
    ∧ (blitAt .settle 3 [] []).rst = false ∧ (blitAt .settle 3 [] []).cmd = .displayBitmap := by decide

/-- Both clauses: Clear while the blit of P6 runs, and a data word in FLUSH. -/
theorem witness_NothingElseIsTaken :
    (blitAt .flush 3 [0x1F, 0] [.ok]).cfg.wf = true ∧ slotOf .clear = .command
    ∧ (blitAt .flush 3 [0x1F, 0] [.ok]).phase ≠ .idle ∧ (blitAt .flush 3 [0x1F, 0] [.ok]).latched ≠ .clear
    ∧ slotOf (.pixel16 0 0 0) = .dataWord ∧ (blitAt .flush 3 [0x1F, 0] [.ok]).phase ≠ .stream := by decide

theorem witness_IllFormedConfigIsRefused : (idleAt kBad [] []).cfg.wf = false := by decide

/-- A request on the port of an idle block; an idle block without one; each phase whose step runs the latched operation. -/
theorem witness_StepRunsTheInstruction :
    (idleAt k4 [p6] []).cfg.wf = true ∧ (idleAt k4 [p6] []).rst = false ∧ (idleAt k4 [p6] []).phase = .idle
    ∧ (idleAt k4 [p6] []).requests = p6 :: [] ∧ decodeRequest k4 p6.request = some (.displayBitmap 0 0 1 3)
    ∧ (idleAt k4 [] []).requests = []
    ∧ (blitAt .frame 0 [] [.ok]).phase = .frame ∧ (blitAt .flush 3 [0x1F, 0] [.ok]).phase = .flush
    ∧ (blitAt .settle 3 [] []).phase = .settle ∧ (blitAt .settle 3 [] []).latched = .displayBitmap 0 0 1 3 := by decide

/-- Both ends of what 32 signed bits hold. -/
theorem witness_RequestsSelectOperations :
    1 ≤ resetConfig.opw ∧ -2 ^ (resetConfig.opw - 1) ≤ (-2147483648 : Int)
    ∧ (2147483647 : Int) < 2 ^ (resetConfig.opw - 1) ∧ -2 ^ (resetConfig.opw - 1) ≤ (2147483647 : Int)
    ∧ (-2147483648 : Int) < 2 ^ (resetConfig.opw - 1) := by decide

theorem witness_UnknownCommandIsRejected :
    (idleAt resetConfig [bare 196 0] []).cfg.wf = true ∧ (idleAt resetConfig [bare 196 0] []).rst = false
    ∧ (idleAt resetConfig [bare 196 0] []).phase = .idle
    ∧ (idleAt resetConfig [bare 196 0] []).requests = bare 196 0 :: []
    ∧ (bare 196 0).request.cmd ∉ [101, 102, 108, 109, 110, 197] := by decide

theorem witness_UnansweredWriteWaits :
    (blitAt .flush 3 [0x1F, 0] []).cfg.wf = true ∧ (blitAt .flush 3 [0x1F, 0] []).rst = false
    ∧ (blitAt .flush 3 [0x1F, 0] []).phase = .flush ∧ (blitAt .frame 0 [] []).phase = .frame
    ∧ (blitAt .flush 3 [0x1F, 0] []).answers = [] := by decide

/-- Each kind of phase that the clauses name, under an asserted reset input. -/
theorem witness_BlockResetAbandonsTheOperation :
    ∀ phase ∈ [Phase.idle, .frame, .stream, .flush, .settle],
      ({ blitAt phase 2 [0x1F, 0] [] with rst := true } : State).cfg.wf = true
      ∧ ({ blitAt phase 2 [0x1F, 0] [] with rst := true } : State).rst = true
      ∧ ({ blitAt phase 2 [0x1F, 0] [] with rst := true } : State).phase = phase := by decide

/-- The blit of P6 after its first pixel. -/
def afterFirstPixel : State := blitAt .stream 1 [0x00, 0xF8] [.ok, .ok]

/-- It meets the invariants. -/
theorem afterFirstPixel_inv : Inv afterFirstPixel where
  cfg_wf := by decide
  fill_eq := by decide
  fill_even := by decide
  fill_le := by decide
  fill_zero := by decide
  stream_open := by decide
  flush_ready := by decide
  blit_cmd := fun _ => rfl
  latches := fun _ => (by decide : 1 ≤ 1 ∧ 1 ≤ 3 ∧ 0 + 1 = 0 + 1 ∧ 0 < 1 ∧ 2 + 1 = 0 + 3 ∧ 2 < 3)
  cursor := fun _ => by decide

theorem witness_StepKeepsInv : Inv afterFirstPixel ∧ ∃ t, step afterFirstPixel = .next t := ⟨afterFirstPixel_inv, _, rfl⟩

theorem witness_StepKeepsStreamFaithful :
    Inv afterFirstPixel ∧ StreamFaithful afterFirstPixel ∧ ∃ t, step afterFirstPixel = .next t := by
  refine ⟨afterFirstPixel_inv, fun _ => ⟨[], [], fun _ => ⟨255, 0, 0⟩, by decide, by decide, ?_, by decide⟩, _, rfl⟩
  intro i hi
  have h1 : afterFirstPixel.cursorIndex = 1 := by decide
  obtain rfl : i = 0 := by omega
  decide

theorem witness_StepKeepsWireFollowingHist :
    WireFollowsHist (blitAt .flush 3 [0x1F, 0] [.fail]) ∧ ∃ t, step (blitAt .flush 3 [0x1F, 0] [.fail]) = .next t :=
  ⟨⟨[], [0x00, 0x00, 0x00, 0x00, 0x02, 0xC5], rfl, [0x00, 0x00, 0x00, 0x00, 0x02, 0xC5], [], rfl, rfl, rfl⟩, _, rfl⟩

/-- A block about to write the last chunk of P6. -/
theorem flushAtEnd_inv : Inv (blitAt .flush 3 [0x1F, 0] [.ok]) where
  cfg_wf := by decide
  fill_eq := by decide
  fill_even := by decide
  fill_le := by decide
  fill_zero := by decide
  stream_open := by decide
  flush_ready := by decide
  blit_cmd := fun _ => rfl
  latches := fun _ => (by decide : 1 ≤ 1 ∧ 1 ≤ 3 ∧ 0 + 1 = 0 + 1 ∧ 0 < 1 ∧ 2 + 1 = 0 + 3 ∧ 2 < 3)
  cursor := fun _ => by decide

theorem witness_StepKeepsWriteSizes :
    Inv (blitAt .flush 3 [0x1F, 0] [.ok]) ∧ (∀ v ∈ (blitAt .flush 3 [0x1F, 0] [.ok]).hist,
      writeFits (blitAt .flush 3 [0x1F, 0] [.ok]).cfg v) ∧ ∃ t, step (blitAt .flush 3 [0x1F, 0] [.ok]) = .next t := by
  refine ⟨flushAtEnd_inv, ?_, _, rfl⟩
  unfold writeFits
  decide

theorem witness_StepKeepsConfigAndBuffers :
    (∃ t, step (idleAt k4 [p6] []) = .next t) ∧ BuffersCanonical (idleAt k4 [p6] []) := by
  refine ⟨⟨_, rfl⟩, ?_⟩
  unfold BuffersCanonical
  decide

theorem witness_BusyBlockHoldsItsOperands :
    (∃ t, step afterFirstPixel = .next t) ∧ afterFirstPixel.rst = false ∧ afterFirstPixel.phase ≠ .idle :=
  ⟨⟨_, rfl⟩, rfl, by decide⟩

/-- A step that writes nothing, one that writes the frame, one that writes a chunk. -/
theorem witness_StepIssuesAtMostOneWrite :
    (∃ t, step afterFirstPixel = .next t) ∧ afterFirstPixel.rst = false
    ∧ (∃ t, step (blitAt .frame 0 [] [.ok]) = .next t) ∧ (∃ t, step (blitAt .flush 3 [0x1F, 0] [.ok]) = .next t) :=
  ⟨⟨_, rfl⟩, rfl, ⟨_, rfl⟩, ⟨_, rfl⟩⟩

/-- No result, InvalidArgument, IoError, OK after settling, OK after a control frame. -/
theorem witness_ResultsAriseWhereTheRulesSay :
    (∃ t, step afterFirstPixel = .next t) ∧ afterFirstPixel.rst = false
    ∧ seen (step (idleAt resetConfig [bare 110 300] [])) = some (.idle, .invalidArgument, [])
    ∧ (nextOf (step (blitAt .flush 3 [0x1F, 0] [.fail]))).map (·.result) = some .ioError
    ∧ (nextOf (step (blitAt .settle 3 [] []))).map (·.results) = some [.ok]
    ∧ (nextOf (step (frameAt .clear 0 [.ok]))).map (·.results) = some [.ok] := by
  refine ⟨⟨_, rfl⟩, ?_⟩
  decide

/-- A step out of each phase, and the waits. -/
theorem witness_PhasesFollowTheTransitions :
    ∀ s ∈ [idleAt k4 [p6] [], blitAt .frame 0 [] [.ok], blitAt .frame 0 [] [], afterFirstPixel,
        blitAt .flush 2 [0, 0xF8, 0xE0, 7] [.ok], blitAt .flush 3 [0x1F, 0] [.ok], blitAt .flush 3 [0x1F, 0] [.fail],
        blitAt .flush 3 [0x1F, 0] [], blitAt .settle 3 [] []],
      (nextOf (step s)).isSome = true ∧ s.rst = false := by decide

/-- The invariants hold with the element under the cursor lent, and with it not lent. -/
theorem witness_StepNeverStopsWhenPixelsAreLent :
    Inv afterFirstPixel ∧ PixelSupplied afterFirstPixel
    ∧ Inv { afterFirstPixel with pixels := [] }
    ∧ ¬ (({ afterFirstPixel with pixels := [] } : State).rst = true ∨ PixelSupplied { afterFirstPixel with pixels := [] }) := by
  refine ⟨afterFirstPixel_inv, fun _ => by decide, ?_, ?_⟩
  · obtain ⟨a, b, c, d, e, f, g, h, i, j⟩ := afterFirstPixel_inv
    exact ⟨a, b, c, d, e, f, g, h, i, j⟩
  · rintro (h | h)
    · cases h
    · cases h rfl

theorem witness_OnlyValidFramesAreSent : Inv afterFirstPixel ∧ afterFirstPixel.phase ≠ .idle :=
  ⟨afterFirstPixel_inv, by decide⟩

theorem witness_AcceptedOperationIsLatched :
    (idleAt k5 [] []).cfg.wf = true ∧ (idleAt k5 [] []).phase = .idle
    ∧ slotOf (.displayBitmap 0 0 1024 1024) = .command ∧ valid k5 (.displayBitmap 0 0 1024 1024) = true
    ∧ valid k5 (.setBrightness 255) = true ∧ valid k5 .reset = true := by decide

theorem witness_CanonicalBuffersAreData :
    (bufferOf p6Pixels).wf = true ∧ Memory.wf [(3, 0x11), (9, 0x22)] = true
    ∧ Memory.wf [(9, 0x22), (3, 0x11)] = false ∧ ∀ a, readByte (bufferOf p6Pixels) a = readByte (bufferOf p6Pixels) a := by
  refine ⟨by decide, by decide, by decide, fun _ => rfl⟩

/-- Three chunks of 2, 2 and 1 bytes. -/
theorem witness_ChunksPartitionThePayload :
    ([1, 2, 3, 4, 5] : List Byte) ≠ [] ∧ 1 ≤ 2 ∧ chunks ([1, 2, 3, 4, 5] : List Byte) 2 = [[1, 2], [3, 4], [5]] := by decide

/-- The pixels of P6 as a function of the index. -/
def p6At (n : Nat) : Pixel := p6Pixels.getD n ⟨0, 0, 0⟩

/-- P6: an idle block, its request, its pixels, and three answers `ok` with one left over. -/
theorem witness_OperationSucceeds :
    (idleAt k4 [p6] [.ok, .ok, .ok, .fail]).cfg.wf = true ∧ (idleAt k4 [p6] [.ok, .ok, .ok, .fail]).rst = false
    ∧ (idleAt k4 [p6] [.ok, .ok, .ok, .fail]).phase = .idle
    ∧ (idleAt k4 [p6] [.ok, .ok, .ok, .fail]).requests = p6 :: []
    ∧ decodeRequest k4 p6.request = some (.displayBitmap 0 0 1 3) ∧ valid k4 (.displayBitmap 0 0 1 3) = true
    ∧ (∀ n < payloadWords (.displayBitmap 0 0 1 3), memRead p6.pixels n = some (p6At n))
    ∧ (idleAt k4 [p6] [.ok, .ok, .ok, .fail]).answers
      = List.replicate (operationWrites k4 (.displayBitmap 0 0 1 3) p6At).length .ok ++ [.fail] := by decide

/-- P6 with its first chunk (write 1) failing, and its frame (write 0) failing: the elements of the chunks before it and
of the failed chunk are lent. -/
theorem witness_OperationStopsAtTheFirstFailure :
    (idleAt k4 [p6] [.ok, .fail]).cfg.wf = true ∧ (idleAt k4 [p6] [.ok, .fail]).rst = false
    ∧ (idleAt k4 [p6] [.ok, .fail]).phase = .idle ∧ (idleAt k4 [p6] [.ok, .fail]).requests = p6 :: []
    ∧ decodeRequest k4 p6.request = some (.displayBitmap 0 0 1 3) ∧ valid k4 (.displayBitmap 0 0 1 3) = true
    ∧ (∀ n < payloadWords (.displayBitmap 0 0 1 3), 2 * n < 1 * k4.chunkBytes → memRead p6.pixels n = some (p6At n))
    ∧ (operationWrites k4 (.displayBitmap 0 0 1 3) p6At)[1]? = some [0x00, 0xF8, 0xE0, 0x07]
    ∧ (idleAt k4 [p6] [.ok, .fail]).answers = List.replicate 1 .ok ++ .fail :: []
    ∧ (operationWrites k4 (.displayBitmap 0 0 1 3) p6At)[0]? = some [0, 0, 0, 0, 2, 0xC5]
    ∧ (idleAt k4 [p6] [.fail]).answers = List.replicate 0 .ok ++ .fail :: [] := by decide

theorem witness_OperationTerminates :
    (idleAt k4 [p6] [.ok, .fail, .ok]).cfg.wf = true ∧ (idleAt k4 [p6] [.ok, .fail, .ok]).rst = false
    ∧ (idleAt k4 [p6] [.ok, .fail, .ok]).phase = .idle
    ∧ (idleAt k4 [p6] [.ok, .fail, .ok]).requests = p6 :: []
    ∧ decodeRequest k4 p6.request = some (.displayBitmap 0 0 1 3) ∧ valid k4 (.displayBitmap 0 0 1 3) = true
    ∧ (∀ n < payloadWords (.displayBitmap 0 0 1 3), memRead p6.pixels n = some (p6At n))
    ∧ (operationWrites k4 (.displayBitmap 0 0 1 3) p6At).length ≤ (idleAt k4 [p6] [.ok, .fail, .ok]).answers.length := by
  decide

/-- K4 with CHUNK_MULT 4 and 2, and answers enough for both. -/
theorem witness_ChunkSizeIsInvisibleOnTheWire :
    (idleAt k4 [p6] (List.replicate 9 .ok)).cfg.wf = true ∧ ({ k4 with chunkMult := 2 } : Config).wf = true
    ∧ (idleAt k4 [p6] (List.replicate 9 .ok)).phase = .idle
    ∧ (idleAt k4 [p6] (List.replicate 9 .ok)).rst = false
    ∧ (idleAt k4 [p6] (List.replicate 9 .ok)).requests = p6 :: []
    ∧ (idleAt k4 [p6] (List.replicate 9 .ok)).answers = List.replicate 9 .ok
    ∧ decodeRequest k4 p6.request = some (.displayBitmap 0 0 1 3) ∧ valid k4 (.displayBitmap 0 0 1 3) = true
    ∧ (∀ n < payloadWords (.displayBitmap 0 0 1 3), memRead p6.pixels n = some (p6At n))
    ∧ operationSteps k4 (.displayBitmap 0 0 1 3) ≤ 9
    ∧ operationSteps { k4 with chunkMult := 2 } (.displayBitmap 0 0 1 3) ≤ 9 := by decide

/-- The block of P6's end state, with P6 on its port again. -/
def afterBlit : State := { blitAt .idle 3 [] [.ok, .ok, .ok] with requests := [p6], result := .ioError }

/-- A fresh block and one that has run a blit, both given P6; and a step of the first. -/
theorem witness_OperationsAreIndependent :
    ((idleAt k4 [p6] [.ok, .ok, .ok]).phase = .idle ∧ afterBlit.phase = .idle
      ∧ (idleAt k4 [p6] [.ok, .ok, .ok]).cfg = afterBlit.cfg
      ∧ (idleAt k4 [p6] [.ok, .ok, .ok]).requests = afterBlit.requests
      ∧ (idleAt k4 [p6] [.ok, .ok, .ok]).answers = afterBlit.answers
      ∧ (idleAt k4 [p6] [.ok, .ok, .ok]).rst = false ∧ afterBlit.rst = false)
    ∧ ∃ t, run 1 (idleAt k4 [p6] [.ok, .ok, .ok]) = .next t := ⟨by decide, _, rfl⟩

end Sys2Proof.Tests
end

section
/-! SUPPORT. The scope of the model: which configurations the rules give a meaning to, and that any other is refused
(00_scope.md R11). -/

namespace Sys2Proof

/-- `CHUNK_BYTES` is even: a residue in the model's check, a factor 2 in the words of R11. -/
theorem Config.chunkBytes_even_iff (c : Config) :
    c.chunkBytes % 2 = 0 ↔ ∃ n, c.displayWidth * c.chunkMult = 2 * n :=
  Nat.dvd_iff_mod_eq_zero.symm

/-- The model's check is the condition of 00_scope.md R11. -/
theorem Config.wf_iff (c : Config) :
    c.wf = true ↔
      1 ≤ c.displayWidth ∧ c.displayWidth ≤ 1024 ∧ 1 ≤ c.displayHeight ∧ c.displayHeight ≤ 1024
      ∧ 1 ≤ c.chunkMult ∧ (∃ n, c.displayWidth * c.chunkMult = 2 * n) ∧ 0 ≤ c.settleDelayMs ∧ 12 ≤ c.opw := by
  rw [Config.wf, decide_eq_true_iff, c.chunkBytes_even_iff]

namespace Machine

/-- The one shape of a command's meaning looks at the configuration before the phase. -/
theorem runCommand_of_illFormed (i : Instr) (isValid : Bool) (load : State → State) {s : State}
    (hwf : s.cfg.wf = false) : runCommand i isValid load s = .refused .configIllFormed := by
  rw [runCommand, if_neg (Bool.eq_false_iff.mp hwf)]

theorem execPixel16_of_illFormed (r : BitVec 5) (g : BitVec 6) (b : BitVec 5) {s : State}
    (hwf : s.cfg.wf = false) : execPixel16 r g b s = .refused .configIllFormed := by
  rw [execPixel16, if_neg (Bool.eq_false_iff.mp hwf)]

/-- Every instruction is refused: a command through the shape all commands share, a data word by its own check. -/
theorem exec_of_illFormed (i : Instr) {s : State} (hwf : s.cfg.wf = false) :
    exec i s = .refused .configIllFormed := by
  cases hi : slotOf i with
  | command => rw [exec_command i hi]; exact runCommand_of_illFormed i _ _ hwf
  | dataWord =>
    cases i with
    | pixel16 r g b => exact execPixel16_of_illFormed r g b hwf
    | _ => cases hi

/-- A step looks at the configuration before the reset input and before it fetches. -/
theorem step_of_illFormed {s : State} (hwf : s.cfg.wf = false) : step s = .refused .configIllFormed := by
  rw [step, if_neg (Bool.eq_false_iff.mp hwf)]

/-- Settles O23: the check is R11's condition, and the step and each shape of meaning test it first. -/
theorem illFormedConfigIsRefused : Obligations.IllFormedConfigIsRefused :=
  fun s => ⟨s.cfg.wf_iff, fun hwf => ⟨step_of_illFormed hwf, fun i => exec_of_illFormed i hwf⟩⟩

end Machine
end Sys2Proof
end

section
/-! SUPPORT. Acceptance: what the request port reads of a request, what each field of State holds after the latches are
loaded, and that the latches of a valid command read back as the command and fit. -/

namespace Sys2Proof

open Machine Safety

/-! The request port (10_state.md R29, 30_encoding.md R95). -/

/-- An operand that OPW signed bits hold is read as itself. -/
theorem Config.sext_of_fits {c : Config} {v : Int} (hopw : 1 ≤ c.opw) (hlo : -2 ^ (c.opw - 1) ≤ v)
    (hhi : v < 2 ^ (c.opw - 1)) : c.sext v = v :=
  BitVec.toInt_ofInt_eq_self hopw hlo hhi

/-- Settles O25: the opcode byte selects the command, and the operands the command uses are read as themselves. -/
theorem requestsSelectOperations : Obligations.RequestsSelectOperations := by
  intro c x y w h hopw hx hx' hy hy' hw hw' hh hh'
  have ex := c.sext_of_fits hopw hx hx'
  have ey := c.sext_of_fits hopw hy hy'
  have ew := c.sext_of_fits hopw hw hw'
  have eh := c.sext_of_fits hopw hh hh'
  refine ⟨rfl, rfl, rfl, rfl, ?_, ?_⟩
  · show some (Instr.setBrightness (c.sext x)) = _
    rw [ex]
  · show some (Instr.displayBitmap (c.sext x) (c.sext y) (c.sext w) (c.sext h)) = _
    rw [ex, ey, ew, eh]

/-- CHUNK_BYTES is not 0: both its factors are at least 1 (00_scope.md R9, R11). -/
theorem Config.chunkBytes_pos {c : Config} (hwf : c.wf = true) : 0 < c.chunkBytes := by
  obtain ⟨hw, -, -, -, hm, -⟩ := c.wf_iff.1 hwf
  exact Nat.mul_pos hw hm

/-- Chunks hold whole byte pairs (00_scope.md R11). -/
theorem Config.chunkBytes_even {c : Config} (hwf : c.wf = true) : c.chunkBytes % 2 = 0 := by
  obtain ⟨-, -, -, -, -, heven, -⟩ := c.wf_iff.1 hwf
  exact c.chunkBytes_even_iff.2 heven

namespace Machine

theorem valid_setBrightness_iff (c : Config) (level : Int) :
    valid c (.setBrightness level) = true ↔ 0 ≤ level ∧ level ≤ 255 := decide_eq_true_iff

theorem valid_displayBitmap_iff (c : Config) (x y w h : Int) :
    valid c (.displayBitmap x y w h) = true ↔
      0 < w ∧ 0 < h ∧ 0 ≤ x ∧ 0 ≤ y ∧ x + w - 1 < c.displayWidth ∧ y + h - 1 < c.displayHeight := decide_eq_true_iff

/-- An integer that fits a field is latched without truncation (10_state.md R24, R25). -/
theorem toNat_ofInt_of_fits {n : Nat} {v : Int} (h0 : 0 ≤ v) (h : v < 2 ^ n) :
    ((BitVec.ofInt n v).toNat : Int) = v := by
  have hv : v % ((2 ^ n : Nat) : Int) = v := Int.emod_eq_of_lt h0 (by exact_mod_cast h)
  rw [BitVec.toNat_ofInt, hv, Int.toNat_of_nonneg h0]

/-! `loadOf`: the latches alone -/

@[simp] theorem loadOf_phase (i : Instr) (s : State) : (loadOf i s).phase = s.phase := by cases i <;> rfl
@[simp] theorem loadOf_row (i : Instr) (s : State) : (loadOf i s).row = s.row := by cases i <;> rfl
@[simp] theorem loadOf_col (i : Instr) (s : State) : (loadOf i s).col = s.col := by cases i <;> rfl
@[simp] theorem loadOf_buf (i : Instr) (s : State) : (loadOf i s).buf = s.buf := by cases i <;> rfl
@[simp] theorem loadOf_fill (i : Instr) (s : State) : (loadOf i s).fill = s.fill := by cases i <;> rfl
@[simp] theorem loadOf_result (i : Instr) (s : State) : (loadOf i s).result = s.result := by cases i <;> rfl
@[simp] theorem loadOf_cfg (i : Instr) (s : State) : (loadOf i s).cfg = s.cfg := by cases i <;> rfl
@[simp] theorem loadOf_requests (i : Instr) (s : State) : (loadOf i s).requests = s.requests := by cases i <;> rfl
@[simp] theorem loadOf_pixels (i : Instr) (s : State) : (loadOf i s).pixels = s.pixels := by cases i <;> rfl
@[simp] theorem loadOf_answers (i : Instr) (s : State) : (loadOf i s).answers = s.answers := by cases i <;> rfl
@[simp] theorem loadOf_rst (i : Instr) (s : State) : (loadOf i s).rst = s.rst := by cases i <;> rfl
@[simp] theorem loadOf_hist (i : Instr) (s : State) : (loadOf i s).hist = s.hist := by cases i <;> rfl
@[simp] theorem loadOf_wire (i : Instr) (s : State) : (loadOf i s).wire = s.wire := by cases i <;> rfl
@[simp] theorem loadOf_results (i : Instr) (s : State) : (loadOf i s).results = s.results := by cases i <;> rfl
@[simp] theorem loadOf_draws (i : Instr) (s : State) : (loadOf i s).draws = s.draws := by cases i <;> rfl

/-- The latches of a valid command read back as the command: no operand is truncated (10_state.md R23 to R25). -/
theorem loadOf_latched {s : State} {i : Instr} (hwf : s.cfg.wf = true) (hv : valid s.cfg i = true) :
    (loadOf i s).latched = i := by
  cases i with
  | reset => rfl
  | clear => rfl
  | screenOff => rfl
  | screenOn => rfl
  | setBrightness level =>
    obtain ⟨hlo, hhi⟩ := (valid_setBrightness_iff _ level).1 hv
    show Instr.setBrightness (BitVec.ofInt 10 level).toNat = _
    rw [toNat_ofInt_of_fits hlo (by omega)]
  | displayBitmap x y w h =>
    obtain ⟨hw, hh, hx, hy, hex, hey⟩ := (valid_displayBitmap_iff _ x y w h).1 hv
    obtain ⟨-, hdw, -, hdh, -⟩ := s.cfg.wf_iff.1 hwf
    show Instr.displayBitmap (BitVec.ofInt 10 x).toNat (BitVec.ofInt 10 y).toNat (BitVec.ofInt 11 w).toNat
      (BitVec.ofInt 11 h).toNat = _
    rw [toNat_ofInt_of_fits hx (by omega), toNat_ofInt_of_fits hy (by omega), toNat_ofInt_of_fits hw.le (by omega),
      toNat_ofInt_of_fits hh.le (by omega)]
  | pixel16 r g b => cases hv

/-- The latches of a valid command fit (10_state.md R24, R25). -/
theorem loadOf_latchesFit {s : State} {i : Instr} (hwf : s.cfg.wf = true) (hv : valid s.cfg i = true) :
    latchesFit (loadOf i s) := by
  cases i with
  | reset => exact ⟨rfl, rfl, rfl, rfl⟩
  | clear => exact ⟨rfl, rfl, rfl, rfl⟩
  | screenOff => exact ⟨rfl, rfl, rfl, rfl⟩
  | screenOn => exact ⟨rfl, rfl, rfl, rfl⟩
  | setBrightness level =>
    obtain ⟨hlo, hhi⟩ := (valid_setBrightness_iff _ level).1 hv
    have elevel := toNat_ofInt_of_fits (n := 10) hlo (by omega)
    exact ⟨by show (BitVec.ofInt 10 level).toNat ≤ 255; omega, rfl, rfl, rfl⟩
  | displayBitmap x y w h =>
    obtain ⟨hw, hh, hx, hy, hex, hey⟩ := (valid_displayBitmap_iff _ x y w h).1 hv
    obtain ⟨-, hdw, -, hdh, -⟩ := s.cfg.wf_iff.1 hwf
    have ex := toNat_ofInt_of_fits (n := 10) hx (by omega)
    have ey := toNat_ofInt_of_fits (n := 10) hy (by omega)
    have eex := toNat_ofInt_of_fits (n := 10) (v := x + w - 1) (by omega) (by omega)
    have eey := toNat_ofInt_of_fits (n := 10) (v := y + h - 1) (by omega) (by omega)
    have ew := toNat_ofInt_of_fits (n := 11) hw.le (by omega)
    have eh := toNat_ofInt_of_fits (n := 11) hh.le (by omega)
    simp only [latchesFit, loadOf, latchSize_cmd, latch_cmd, latchSize_w, latchSize_h, latchSize_fx, latchSize_fy,
      latchSize_fex, latchSize_fey, latch_fx, latch_fy, latch_fex, latch_fey, latchSize_cfg, latch_cfg]
    omega
  | pixel16 r g b => cases hv

/-- The frame of the latches is the encoding of the command that loaded them (42_pixel_streamer.md R143 to R145). -/
theorem loadOf_frameBytes {i : Instr} (hi : slotOf i = .command) (order : ByteOrder) (s : State) :
    (loadOf i s).frameBytes = encode order i := by
  cases i with
  | pixel16 r g b => cases hi
  | _ => rfl

/-- Settles O43: a valid command is accepted in IDLE, and acceptance loads its latches alone. -/
theorem acceptedOperationIsLatched : Obligations.AcceptedOperationIsLatched := by
  intro s i hwf hidle hi hv
  refine ⟨accept (loadOf i) s, by rw [exec_idle i hi s hwf hidle, if_pos hv], rfl, loadOf_latched hwf hv,
    loadOf_latchesFit hwf hv, loadOf_frameBytes hi _ s, ?_, ?_⟩
  · exact loadOf_hist i s
  · exact loadOf_result i s

end Machine
end Sys2Proof
end

section
/-! SUPPORT. The invariants of 10_state.md R37 (a) to (d), (f) with the ranges of R24 to R26: the idle states, the block
reset and the *pixel* transition, which are the cases with content; then every step. -/

namespace Sys2Proof.Safety

open Machine

/-- In IDLE the invariants ask for a well-formed configuration and an empty buffer, and for nothing of the latches and
the cursor. -/
theorem inv_of_idle {s : State} (hwf : s.cfg.wf = true) (hidle : s.phase = .idle) (hbuf : s.buf = [])
    (hfill : s.fill = 0) : Inv s where
  cfg_wf := hwf
  fill_eq := by rw [hfill, hbuf]; rfl
  fill_even := by rw [hfill]
  fill_le := by rw [hfill]; exact Nat.zero_le _
  fill_zero _ := hfill
  stream_open h := by simp [hidle] at h
  flush_ready h := by simp [hidle] at h
  blit_cmd h := by simp [inBlit, hidle] at h
  latches h := absurd hidle h
  cursor h := by simp [inBlit, hidle] at h

/-- Where FILL is 0, BUF is empty (10_state.md R27). -/
theorem Inv.buf_eq_nil {s : State} (h : Inv s) (hfill : s.fill = 0) : s.buf = [] :=
  List.length_eq_zero_iff.1 (h.fill_eq.symm.trans hfill)

/-- Completion from a phase whose buffer is empty. -/
theorem Inv.complete {s : State} (h : Inv s) (r : Result) (hfill : s.fill = 0) : Inv (complete r s) :=
  inv_of_idle h.cfg_wf rfl (h.buf_eq_nil hfill) hfill

/-- What `TxWrite` records is no part of the invariants. -/
theorem Inv.recordWrite {s : State} (h : Inv s) (b : List Byte) (a : Answer) : Inv (recordWrite b a s) :=
  { h with }

/-- Nor are the ports of the host. -/
theorem Inv.present {s : State} (h : Inv s) (p : Presented) (rest : List Presented) : Inv (present p rest s) :=
  { h with }

theorem Inv.raiseIoError {s : State} (h : Inv s) : Inv (raiseIoError s) := inv_of_idle h.cfg_wf rfl rfl rfl

theorem Inv.blockReset {s : State} (h : Inv s) : Inv (blockReset s) := inv_of_idle h.cfg_wf rfl rfl rfl

theorem Inv.reject {s : State} (h : Inv s) (hidle : s.phase = .idle) : Inv (reject s) :=
  h.complete .invalidArgument (h.fill_zero (.inl hidle))

/-- Acceptance loads latches that fit, over an empty buffer. -/
theorem Inv.accept {s : State} (h : Inv s) (hidle : s.phase = .idle) {i : Instr} (hv : valid s.cfg i = true) :
    Inv (accept (loadOf i) s) where
  cfg_wf := by simpa [Machine.accept] using h.cfg_wf
  fill_eq := by simpa [Machine.accept] using h.fill_eq
  fill_even := by simpa [Machine.accept] using h.fill_even
  fill_le := by simpa [Machine.accept] using h.fill_le
  fill_zero _ := by simpa [Machine.accept] using h.fill_zero (.inl hidle)
  stream_open hp := by simp [Machine.accept] at hp
  flush_ready hp := by simp [Machine.accept] at hp
  blit_cmd hp := by simp [inBlit, Machine.accept] at hp
  latches _ := loadOf_latchesFit h.cfg_wf hv
  cursor hp := by simp [inBlit, Machine.accept] at hp

/-- The latches of a DisplayBitmap in progress hold a rectangle that is not empty (10_state.md R25). -/
theorem Inv.size_pos {s : State} (h : Inv s) (hbusy : s.phase ≠ .idle) (hc : s.cmd = .displayBitmap) :
    1 ≤ s.w.toNat ∧ 1 ≤ s.h.toNat := by
  have hfit := h.latches hbusy
  rw [latchesFit, hc] at hfit
  exact ⟨hfit.1, hfit.2.1⟩

/-- The stream begins with an empty buffer at the first pixel, before the end of a rectangle that is not empty. -/
theorem Inv.frameOkBlit {s : State} (h : Inv s) (hframe : s.phase = .frame) (hc : s.cmd = .displayBitmap) :
    Inv (frameOkBlit s) := by
  have hbusy : s.phase ≠ .idle := by simp [hframe]
  obtain ⟨hw, hh⟩ := h.size_pos hbusy hc
  have hrow : (0 : Extent) ≠ s.h := by
    rintro h0
    simp [← h0] at hh
  exact {
    cfg_wf := h.cfg_wf
    fill_eq := rfl
    fill_even := rfl
    fill_le := Nat.zero_le _
    fill_zero := fun _ => rfl
    stream_open := fun _ => ⟨Config.chunkBytes_pos h.cfg_wf, (State.atEnd_eq_false_iff _).2 hrow⟩
    flush_ready := fun hp => by simp [Machine.frameOkBlit] at hp
    blit_cmd := fun _ => hc
    latches := fun _ => h.latches hbusy
    cursor := fun _ => ⟨Nat.zero_le _, hw, fun _ => rfl⟩ }

/-- After a chunk the stream goes on with an empty buffer, the cursor not at the end. -/
theorem Inv.flushOkMore {s : State} (h : Inv s) (hflush : s.phase = .flush) (hend : s.atEnd = false) :
    Inv (flushOkMore s) where
  cfg_wf := h.cfg_wf
  fill_eq := rfl
  fill_even := rfl
  fill_le := Nat.zero_le _
  fill_zero _ := rfl
  stream_open _ := ⟨Config.chunkBytes_pos h.cfg_wf, hend⟩
  flush_ready hp := by simp [Machine.flushOkMore] at hp
  blit_cmd _ := h.blit_cmd (.inr (.inl hflush))
  latches _ := h.latches (by simp [hflush])
  cursor _ := h.cursor (.inr (.inl hflush))

/-- After the last chunk the block settles with an empty buffer. -/
theorem Inv.flushOkEnd {s : State} (h : Inv s) (hflush : s.phase = .flush) : Inv (flushOkEnd s) where
  cfg_wf := h.cfg_wf
  fill_eq := rfl
  fill_even := rfl
  fill_le := Nat.zero_le _
  fill_zero _ := rfl
  stream_open hp := by simp [Machine.flushOkEnd] at hp
  flush_ready hp := by simp [Machine.flushOkEnd] at hp
  blit_cmd _ := h.blit_cmd (.inr (.inl hflush))
  latches _ := h.latches (by simp [hflush])
  cursor _ := h.cursor (.inr (.inl hflush))

/-- The cursor advances inside the rectangle, and stands at column 0 when it comes to the end (10_state.md R26). -/
theorem nextCursor_inRange {s : State} (hrow : s.row.toNat < s.h.toNat) (hcol : s.col.toNat < s.w.toNat) :
    s.nextRow.toNat ≤ s.h.toNat ∧ s.nextCol.toNat < s.w.toNat ∧ (s.nextRow = s.h → s.nextCol = 0) := by
  have hw := s.w.isLt
  have hh := s.h.isLt
  unfold State.nextRow State.nextCol
  by_cases hlast : s.col.toNat + 1 < s.w.toNat
  · have hcol' : (s.col + 1).toNat = s.col.toNat + 1 := BitVec.toNat_add_of_lt (by simp; omega)
    rw [if_pos hlast, if_pos hlast, hcol']
    exact ⟨hrow.le, hlast, fun he => absurd hrow (by simp [he])⟩
  · have hrow' : (s.row + 1).toNat = s.row.toNat + 1 := BitVec.toNat_add_of_lt (by simp; omega)
    rw [if_neg hlast, if_neg hlast, hrow']
    exact ⟨hrow, by simp; omega, fun _ => rfl⟩

/-- *pixel* appends two bytes to a buffer that is not full, and goes to FLUSH exactly when it is now full or the cursor
at the end (10_state.md R37, 42_pixel_streamer.md R146). -/
theorem Inv.appendWord {s : State} (h : Inv s) (hstream : s.phase = .stream) (v : PixelWord) : Inv (appendWord v s) := by
  obtain ⟨hopen, hend⟩ := h.stream_open hstream
  obtain ⟨hrow, hcol, -⟩ := h.cursor (.inl hstream)
  have hbusy : s.phase ≠ .idle := by simp [hstream]
  have hroom : s.fill + 2 ≤ s.cfg.chunkBytes := by
    have := h.fill_even
    have := Config.chunkBytes_even h.cfg_wf
    omega
  have hbefore : s.row.toNat < s.h.toNat :=
    lt_of_le_of_ne hrow fun he => (State.atEnd_eq_false_iff s).1 hend (BitVec.eq_of_toNat_eq he)
  have hphase : (Machine.appendWord v s).phase = if s.fill + 2 = s.cfg.chunkBytes ∨ s.nextRow = s.h then .flush else .stream := by
    rw [appendWord_phase, hstream]
  exact {
    cfg_wf := by simpa using h.cfg_wf
    fill_eq := by simp [h.fill_eq]
    fill_even := by simpa using h.fill_even
    fill_le := by simpa using hroom
    fill_zero := fun hp => by
      rw [hphase] at hp
      split_ifs at hp <;> simp at hp
    stream_open := fun hp => by
      rw [hphase] at hp
      split_ifs at hp with hfull
      obtain ⟨hchunk, hlast⟩ := not_or.1 hfull
      exact ⟨by simpa using lt_of_le_of_ne hroom hchunk, by simpa [State.atEnd_eq_false_iff] using hlast⟩
    flush_ready := fun hp => by
      rw [hphase] at hp
      split_ifs at hp with hfull
      exact ⟨by simp, by simpa [State.atEnd_iff] using hfull⟩
    blit_cmd := fun _ => by simpa using h.blit_cmd (.inl hstream)
    latches := fun _ => by
      rw [appendWord_eq]
      exact h.latches hbusy
    cursor := fun _ => by simpa using nextCursor_inRange hbefore hcol }

/-- Settles O32: one case per transition, each by the lemma on what that transition does to the invariants. -/
theorem stepKeepsInv : Obligations.StepKeepsInv := by
  intro s t h hstep
  obtain ⟨-, hcase⟩ := step_cases hstep
  cases hcase with
  | reset => exact h.blockReset
  | rest => exact h
  | unknown _ hp => exact (h.present _ _).reject hp
  | reject _ hp => exact (h.present _ _).reject hp
  | accept _ hp _ _ hv => exact (h.present _ _).accept hp hv
  | frameWait => exact h
  | frameOkControl _ hp => exact (h.recordWrite _ _).complete .ok (h.fill_zero (.inr (.inl hp)))
  | frameOkBlit _ hp _ hc => exact (h.recordWrite _ _).frameOkBlit hp hc
  | frameFail => exact (h.recordWrite _ _).raiseIoError
  | pixel _ hp => exact h.appendWord hp _
  | flushWait => exact h
  | flushOkMore _ hp _ he => exact (h.recordWrite _ _).flushOkMore hp he
  | flushOkEnd _ hp => exact (h.recordWrite _ _).flushOkEnd hp
  | flushFail => exact (h.recordWrite _ _).raiseIoError
  | settleDone _ hp => exact h.complete .ok (h.fill_zero (.inr (.inr hp)))

end Sys2Proof.Safety
end

section
/-! SUPPORT. What every step keeps of the configuration, the ports, the latches and the wire (10_state.md R23 to R25, R30,
R32, R34). -/

namespace Sys2Proof.Machine

open Safety

/-- No transition writes the configuration (10_state.md R34). -/
theorem StepTo.cfg_eq {s t : State} (h : StepTo s t) : t.cfg = s.cfg := by
  cases h with
  | accept => simp [Machine.accept]
  | pixel => exact appendWord_cfg _ s
  | _ => rfl

/-- A transition leaves the host's ports as they are, but for the one that takes the request on the port in IDLE, with
its pixel buffer (10_state.md R29, R30). -/
theorem StepTo.ports_eq {s t : State} (h : StepTo s t) :
    (t.pixels = s.pixels ∧ t.requests = s.requests)
    ∨ (s.phase = .idle ∧ s.rst = false
      ∧ ∃ p rest, s.requests = p :: rest ∧ t.pixels = p.pixels ∧ t.requests = rest) := by
  cases h with
  | unknown hr hp hq => exact .inr ⟨hp, hr, _, _, hq, rfl, rfl⟩
  | reject hr hp hq => exact .inr ⟨hp, hr, _, _, hq, rfl, rfl⟩
  | accept hr hp hq => exact .inr ⟨hp, hr, _, _, hq, by simp [Machine.accept], by simp [Machine.accept]⟩
  | pixel => exact .inl ⟨appendWord_pixels _ s, appendWord_requests _ s⟩
  | _ => exact .inl ⟨rfl, rfl⟩

/-- Latches are loaded in IDLE only, or by block reset (10_state.md R23 to R25). -/
theorem StepTo.latches_eq {s t : State} (h : StepTo s t) (hrst : s.rst = false) (hbusy : s.phase ≠ .idle) :
    t.cmd = s.cmd ∧ t.fx = s.fx ∧ t.fy = s.fy ∧ t.fex = s.fex ∧ t.fey = s.fey ∧ t.w = s.w ∧ t.h = s.h := by
  cases h with
  | reset hr => simp [hrst] at hr
  | rest _ hp => exact absurd hp hbusy
  | unknown _ hp => exact absurd hp hbusy
  | reject _ hp => exact absurd hp hbusy
  | accept _ hp => exact absurd hp hbusy
  | pixel => simp
  | _ => exact ⟨rfl, rfl, rfl, rfl, rfl, rfl, rfl⟩

/-- Settles O36: no transition writes `cfg`; the buffer on the pixel port stays or is that of the request taken. -/
theorem stepKeepsConfigAndBuffers : Obligations.StepKeepsConfigAndBuffers := by
  intro s t hstep
  obtain ⟨-, h⟩ := step_cases hstep
  refine ⟨h.cfg_eq, fun ⟨hpixels, hrequests⟩ => ?_⟩
  obtain ⟨epixels, erequests⟩ | ⟨-, -, p, rest, hq, epixels, erequests⟩ := h.ports_eq
  · exact ⟨epixels ▸ hpixels, erequests ▸ hrequests⟩
  · rw [hq, List.forall_mem_cons] at hrequests
    exact ⟨epixels ▸ hrequests.1, erequests ▸ hrequests.2⟩

/-- Settles O37: in a busy block without reset no transition writes a latch or takes a request. -/
theorem busyBlockHoldsItsOperands : Obligations.BusyBlockHoldsItsOperands := by
  intro s t hstep hrst hbusy
  obtain ⟨-, h⟩ := step_cases hstep
  obtain ⟨hcmd, hfx, hfy, hfex, hfey, hw, hh⟩ := h.latches_eq hrst hbusy
  obtain ⟨hpixels, hrequests⟩ | ⟨hidle, -⟩ := h.ports_eq
  · exact ⟨hcmd, hfx, hfy, hfex, hfey, hw, hh, hpixels, hrequests⟩
  · exact absurd hidle hbusy

end Sys2Proof.Machine

namespace Sys2Proof.Safety

open Machine

/-- A history that gets one more write delivers what it delivered, then what that write delivers. -/
theorem Delivers.concat {hist : List Write} {d piece : List Byte} {v : Write} (h : Delivers hist d)
    (hv : if v.outcome = .ok then piece = v.bytes else piece <+: v.bytes) : Delivers (hist ++ [v]) (d ++ piece) := by
  induction hist generalizing d with
  | nil =>
    obtain rfl : d = [] := h
    exact ⟨piece, [], (List.append_nil piece).symm, hv, rfl⟩
  | cons u rest ih =>
    obtain ⟨first, later, rfl, hu, hrest⟩ := h
    exact ⟨first, later ++ piece, List.append_assoc .., hu, ih hrest⟩

/-- All bytes of a write answered `ok` are delivered, the first ones of a write answered `fail` (20_memory.md R61). -/
theorem delivered_fits (a : Answer) (n : Nat) (bytes : List Byte) :
    if a = .ok then delivered a n bytes = bytes else delivered a n bytes <+: bytes := by
  cases a with
  | ok => rfl
  | fail => exact List.take_prefix n bytes

/-- Only HIST and the wire matter. -/
theorem WireFollowsHist.of_eq {s t : State} (h : WireFollowsHist s) (hwire : t.wire = s.wire) (hhist : t.hist = s.hist) :
    WireFollowsHist t := by
  rwa [WireFollowsHist, hwire, hhist]

/-- A write adds to the wire what its entry in HIST may deliver. -/
theorem WireFollowsHist.recordWrite {s : State} (h : WireFollowsHist s) (bytes : List Byte) (a : Answer) :
    WireFollowsHist (recordWrite bytes a s) := by
  obtain ⟨before, since, hwire, hd⟩ := h
  refine ⟨before, since ++ delivered a (Config.failedPrefix s.draws) bytes, ?_, hd.concat (delivered_fits a _ bytes)⟩
  rw [recordWrite_wire, hwire, List.append_assoc]

/-- Block reset empties HIST, and all that is on the wire was there before it. -/
theorem wireFollowsHist_blockReset (s : State) : WireFollowsHist (blockReset s) :=
  ⟨(blockReset s).wire, [], (List.append_nil _).symm, rfl⟩

/-- Settles O34: a transition with a write records it, any other leaves HIST and the wire, block reset begins anew. -/
theorem stepKeepsWireFollowingHist : Obligations.StepKeepsWireFollowingHist := by
  intro s t h hstep
  obtain ⟨-, hcase⟩ := step_cases hstep
  cases hcase with
  | reset => exact wireFollowsHist_blockReset s
  | accept => exact h.of_eq (by simp [accept]) (by simp [accept])
  | frameOkControl | frameOkBlit => exact (h.recordWrite s.frameBytes .ok).of_eq rfl rfl
  | frameFail => exact (h.recordWrite s.frameBytes .fail).of_eq rfl rfl
  | flushOkMore | flushOkEnd => exact (h.recordWrite s.buf .ok).of_eq rfl rfl
  | flushFail => exact (h.recordWrite s.buf .fail).of_eq rfl rfl
  | pixel => exact h.of_eq (appendWord_wire _ s) (appendWord_hist _ s)
  | _ => exact h.of_eq rfl rfl

end Sys2Proof.Safety
end

section
/-! SUPPORT. `step` is exactly the relation `StepTo`; two blocks that agree on what the block reads in their phase go on
alike, so an operation depends on nothing that came before it (10_state.md R20, 43_display_commands.md R168). -/

namespace Sys2Proof.Machine

/-- The other direction of `step_cases`. -/
theorem step_of_stepTo {s t : State} (hwf : s.cfg.wf = true) (h : StepTo s t) : step s = .next t := by
  have busy {p : Phase} (hr : s.rst = false) (hp : s.phase = p) (hne : p ≠ .idle) : step s = advance s :=
    step_busy s hwf hr (hp ▸ hne)
  cases h with
  | reset hr => simp [step, hwf, hr]
  | rest hr hp hq => exact step_rest s hwf hr hp hq
  | unknown hr hp hq hd => exact step_unknown s hwf hr hp hq hd
  | reject hr hp hq hd hv =>
    rw [step_request s hwf hr hp hq hd, exec_idle _ (slotOf_decodeRequest hd) (present _ _ s) hwf hp]
    simp [hv]
  | accept hr hp hq hd hv =>
    rw [step_request s hwf hr hp hq hd, exec_idle _ (slotOf_decodeRequest hd) (present _ _ s) hwf hp]
    simp [hv]
  | frameWait hr hp ha => simp [busy hr hp, advance, hp, frameTransition, txWrite, ha]
  | frameOkControl hr hp ha hc => simp [busy hr hp, advance, hp, frameTransition, txWrite, ha, hc]
  | frameOkBlit hr hp ha hc => simp [busy hr hp, advance, hp, frameTransition, txWrite, ha, hc]
  | frameFail hr hp ha => simp [busy hr hp, advance, hp, frameTransition, txWrite, ha]
  | pixel hr hp hm => simp [busy hr hp, advance, hp, hm]
  | flushWait hr hp ha => simp [busy hr hp, advance, hp, flushTransition, txWrite, ha]
  | flushOkMore hr hp ha he => simp [busy hr hp, advance, hp, flushTransition, txWrite, ha, he]
  | flushOkEnd hr hp ha he => simp [busy hr hp, advance, hp, flushTransition, txWrite, ha, he]
  | flushFail hr hp ha => simp [busy hr hp, advance, hp, flushTransition, txWrite, ha]
  | settleDone hr hp => simp [busy hr hp, advance, hp]

/-- Two states that agree on all that the block reads from their phase on: the ports and the configuration always, the
latches and the buffer lent from acceptance on, the size only of a DisplayBitmap, the cursor and BUF only in STREAM and
FLUSH. -/
structure Alike (s s' : State) : Prop where
  phase : s.phase = s'.phase
  cfg : s.cfg = s'.cfg
  requests : s.requests = s'.requests
  answers : s.answers = s'.answers
  rst_left : s.rst = false
  rst_right : s'.rst = false
  operation : s.phase ≠ .idle → s.cmd = s'.cmd ∧ s.frameBytes = s'.frameBytes ∧ s.pixels = s'.pixels
  size : s.phase ≠ .idle → s.cmd = .displayBitmap → s.w = s'.w ∧ s.h = s'.h
  stream : s.phase = .stream ∨ s.phase = .flush →
    s.cmd = .displayBitmap ∧ s.row = s'.row ∧ s.col = s'.col ∧ s.buf = s'.buf ∧ s.fill = s'.fill

/-- In IDLE the block reads its ports and its configuration alone. -/
theorem alike_of_idle {s s' : State} (hp : s.phase = .idle) (hp' : s'.phase = .idle) (hcfg : s.cfg = s'.cfg)
    (hrequests : s.requests = s'.requests) (hanswers : s.answers = s'.answers) (hr : s.rst = false)
    (hr' : s'.rst = false) : Alike s s' where
  phase := hp.trans hp'.symm
  cfg := hcfg
  requests := hrequests
  answers := hanswers
  rst_left := hr
  rst_right := hr'
  operation h := absurd hp h
  size h := absurd hp h
  stream h := by simp [hp] at h

namespace Alike

variable {s s' : State}

theorem recordWrite (h : Alike s s') (b : List Byte) (a : Answer) :
    Alike (recordWrite b a s) (recordWrite b a s') :=
  { h with answers := congrArg List.tail h.answers }

theorem present (h : Alike s s') (hp : s.phase = .idle) (p : Presented) (rest : List Presented) :
    Alike (present p rest s) (present p rest s') :=
  alike_of_idle hp (h.phase.symm.trans hp) h.cfg rfl h.answers h.rst_left h.rst_right

theorem emptyBuffer (h : Alike s s') : Alike (emptyBuffer s) (emptyBuffer s') :=
  { h with
    stream := fun hp =>
      have ⟨hcmd, hrow, hcol, _⟩ := h.stream hp
      ⟨hcmd, hrow, hcol, rfl, rfl⟩ }

theorem complete (h : Alike s s') (r : Result) : Alike (complete r s) (complete r s') :=
  alike_of_idle rfl rfl h.cfg h.requests h.answers h.rst_left h.rst_right

/-- FLUSH passes on to STREAM or SETTLE what it has. -/
theorem setPhase (h : Alike s s') (hflush : s.phase = .flush) (p : Phase) : Alike (setPhase p s) (setPhase p s') :=
  { h with
    phase := rfl
    operation := fun _ => h.operation (by simp [hflush])
    size := fun _ => h.size (by simp [hflush])
    stream := fun _ => h.stream (.inr hflush) }

/-- The latches are loaded with values of the command alone. -/
theorem accept (h : Alike s s') (hpixels : s.pixels = s'.pixels) {i : Instr} (hi : slotOf i = .command) :
    Alike (accept (loadOf i) s) (accept (loadOf i) s') where
  phase := rfl
  cfg := by simpa [Machine.accept] using h.cfg
  requests := by simpa [Machine.accept] using h.requests
  answers := by simpa [Machine.accept] using h.answers
  rst_left := by simpa [Machine.accept] using h.rst_left
  rst_right := by simpa [Machine.accept] using h.rst_right
  operation _ := by
    refine ⟨?_, (loadOf_frameBytes hi .le s).trans (loadOf_frameBytes hi .le s').symm,
      by simpa [Machine.accept] using hpixels⟩
    cases i with
    | pixel16 r g b => cases hi
    | _ => rfl
  size _ hc := by
    cases i with
    | displayBitmap x y w h => exact ⟨rfl, rfl⟩
    | pixel16 r g b => cases hi
    | _ => cases hc
  stream hp := by simp [Machine.accept] at hp

/-- The stream of a DisplayBitmap begins with the cursor and BUF set. -/
theorem frameOkBlit (h : Alike s s') (hframe : s.phase = .frame) (hc : s.cmd = .displayBitmap) :
    Alike (frameOkBlit s) (frameOkBlit s') :=
  { h with
    phase := rfl
    operation := fun _ => h.operation (by simp [hframe])
    size := fun _ => h.size (by simp [hframe])
    stream := fun _ => ⟨hc, rfl, rfl, rfl, rfl⟩ }

theorem atEnd (h : Alike s s') (hp : s.phase = .stream ∨ s.phase = .flush) : s.atEnd = s'.atEnd := by
  obtain ⟨hc, hrow, -⟩ := h.stream hp
  obtain ⟨-, hh⟩ := h.size (by rintro hi; simp [hi] at hp) hc
  rw [State.atEnd, State.atEnd, hrow, hh]

/-- *pixel* reads the same element and appends the same word at the same place. -/
theorem appendWord (h : Alike s s') (hstream : s.phase = .stream) (v : PixelWord) :
    Alike (appendWord v s) (appendWord v s') := by
  have hbusy : s.phase ≠ .idle := by simp [hstream]
  obtain ⟨hc, hrow, hcol, hbuf, hfill⟩ := h.stream (.inl hstream)
  obtain ⟨hw, hh⟩ := h.size hbusy hc
  obtain ⟨hcmd, hframe, hpixels⟩ := h.operation hbusy
  have hnextRow : s.nextRow = s'.nextRow := by simp only [State.nextRow, hrow, hcol, hw]
  have hnextCol : s.nextCol = s'.nextCol := by simp only [State.nextCol, hcol, hw]
  have hframeBytes (u : State) : (Machine.appendWord v u).frameBytes = u.frameBytes := by simp [State.frameBytes]
  exact {
    phase := by simp [hfill, h.cfg, hnextRow, hh, h.phase]
    cfg := by simpa using h.cfg
    requests := by simpa using h.requests
    answers := by simpa using h.answers
    rst_left := by simpa using h.rst_left
    rst_right := by simpa using h.rst_right
    operation := fun _ => by simpa [hframeBytes] using ⟨hcmd, hframe, hpixels⟩
    size := fun _ _ => by simpa using ⟨hw, hh⟩
    stream := fun _ => by simpa [hbuf, hfill, h.cfg] using ⟨hc, hnextRow, hnextCol⟩ }

theorem cursorIndex (h : Alike s s') (hstream : s.phase = .stream) : s.cursorIndex = s'.cursorIndex := by
  obtain ⟨hc, hrow, hcol, -⟩ := h.stream (.inl hstream)
  obtain ⟨hw, -⟩ := h.size (by simp [hstream]) hc
  rw [State.cursorIndex, State.cursorIndex, hrow, hcol, hw]

end Alike

/-- What a run adds to HIST and to the list of results. -/
def Emits (s t : State) (writes : List Write) (results : List Result) : Prop :=
  t.hist = s.hist ++ writes ∧ t.results = s.results ++ results

theorem emits_nothing {s t : State} (hhist : t.hist = s.hist) (hresults : t.results = s.results) : Emits s t [] [] :=
  ⟨by simpa using hhist, by simpa using hresults⟩

theorem Emits.trans {s t u : State} {ws ws' : List Write} {rs rs' : List Result} (h : Emits s t ws rs)
    (h' : Emits t u ws' rs') : Emits s u (ws ++ ws') (rs ++ rs') := by
  obtain ⟨hhist, hresults⟩ := h
  obtain ⟨hhist', hresults'⟩ := h'
  exact ⟨by rw [hhist', hhist, List.append_assoc], by rw [hresults', hresults, List.append_assoc]⟩

/-- Acceptance issues no write and reports no result (42_pixel_streamer.md R142). -/
theorem emits_accept (i : Instr) (p : Presented) (rest : List Presented) (s : State) :
    Emits s (accept (loadOf i) (present p rest s)) [] [] :=
  emits_nothing (by simp [accept]) (by simp [accept])

/-- A write that ends no operation. -/
theorem emits_write {s t : State} {b : List Byte} {a : Answer} (hhist : t.hist = s.hist ++ [⟨b, a⟩])
    (hresults : t.results = s.results) : Emits s t [⟨b, a⟩] [] :=
  ⟨hhist, by simpa using hresults⟩

/-- A result reported without a write. -/
theorem emits_result {s t : State} {r : Result} (hhist : t.hist = s.hist) (hresults : t.results = s.results ++ [r]) :
    Emits s t [] [r] :=
  ⟨by simpa using hhist, hresults⟩

/-- A block that agrees with another takes the same transition, to a state that agrees with the other's, and emits the
same. -/
theorem StepTo.alike {s s' t : State} (h : Alike s s') (hstep : StepTo s t) :
    ∃ t' ws rs, StepTo s' t' ∧ Alike t t' ∧ Emits s t ws rs ∧ Emits s' t' ws rs := by
  have hr' := h.rst_right
  cases hstep with
  | reset hr => simp [h.rst_left] at hr
  | rest _ hp hq =>
    exact ⟨s', [], [], .rest hr' (h.phase ▸ hp) (h.requests ▸ hq), h, emits_nothing rfl rfl, emits_nothing rfl rfl⟩
  | unknown _ hp hq hd =>
    exact ⟨_, [], [.invalidArgument], .unknown hr' (h.phase ▸ hp) (h.requests ▸ hq) (h.cfg ▸ hd),
      (h.present hp _ _).complete _, emits_result rfl rfl, emits_result rfl rfl⟩
  | reject _ hp hq hd hv =>
    exact ⟨_, [], [.invalidArgument], .reject hr' (h.phase ▸ hp) (h.requests ▸ hq) (h.cfg ▸ hd) (h.cfg ▸ hv),
      (h.present hp _ _).complete _, emits_result rfl rfl, emits_result rfl rfl⟩
  | accept _ hp hq hd hv =>
    exact ⟨_, [], [], .accept hr' (h.phase ▸ hp) (h.requests ▸ hq) (h.cfg ▸ hd) (h.cfg ▸ hv),
      (h.present hp _ _).accept rfl (slotOf_decodeRequest hd), emits_accept _ _ _ s, emits_accept _ _ _ s'⟩
  | frameWait _ hp ha =>
    exact ⟨s', [], [], .frameWait hr' (h.phase ▸ hp) (h.answers ▸ ha), h, emits_nothing rfl rfl, emits_nothing rfl rfl⟩
  | frameOkControl _ hp ha hc =>
    obtain ⟨hcmd, hframe, -⟩ := h.operation (by simp [hp])
    rw [hframe]
    exact ⟨_, [⟨s'.frameBytes, .ok⟩], [.ok], .frameOkControl hr' (h.phase ▸ hp) (h.answers ▸ ha) (hcmd ▸ hc),
      (h.recordWrite _ _).complete _, ⟨rfl, rfl⟩, rfl, rfl⟩
  | frameOkBlit _ hp ha hc =>
    obtain ⟨hcmd, hframe, -⟩ := h.operation (by simp [hp])
    rw [hframe]
    exact ⟨_, [⟨s'.frameBytes, .ok⟩], [], .frameOkBlit hr' (h.phase ▸ hp) (h.answers ▸ ha) (hcmd ▸ hc),
      (h.recordWrite _ _).frameOkBlit hp hc, emits_write rfl rfl, emits_write rfl rfl⟩
  | frameFail _ hp ha =>
    obtain ⟨-, hframe, -⟩ := h.operation (by simp [hp])
    rw [hframe]
    exact ⟨_, [⟨s'.frameBytes, .fail⟩], [.ioError], .frameFail hr' (h.phase ▸ hp) (h.answers ▸ ha),
      (h.recordWrite _ _).emptyBuffer.complete _, ⟨rfl, rfl⟩, rfl, rfl⟩
  | pixel _ hp hm =>
    obtain ⟨-, -, hpixels⟩ := h.operation (by simp [hp])
    rw [hpixels, h.cursorIndex hp] at hm
    exact ⟨_, [], [], .pixel hr' (h.phase ▸ hp) hm, h.appendWord hp _,
      emits_nothing (by simp) (by simp), emits_nothing (by simp) (by simp)⟩
  | flushWait _ hp ha =>
    exact ⟨s', [], [], .flushWait hr' (h.phase ▸ hp) (h.answers ▸ ha), h, emits_nothing rfl rfl, emits_nothing rfl rfl⟩
  | flushOkMore _ hp ha he =>
    obtain ⟨-, -, -, hbuf, -⟩ := h.stream (.inr hp)
    rw [hbuf]
    exact ⟨_, [⟨s'.buf, .ok⟩], [], .flushOkMore hr' (h.phase ▸ hp) (h.answers ▸ ha) (h.atEnd (.inr hp) ▸ he),
      (h.recordWrite _ _).emptyBuffer.setPhase hp _, emits_write rfl rfl, emits_write rfl rfl⟩
  | flushOkEnd _ hp ha he =>
    obtain ⟨-, -, -, hbuf, -⟩ := h.stream (.inr hp)
    rw [hbuf]
    exact ⟨_, [⟨s'.buf, .ok⟩], [], .flushOkEnd hr' (h.phase ▸ hp) (h.answers ▸ ha) (h.atEnd (.inr hp) ▸ he),
      (h.recordWrite _ _).emptyBuffer.setPhase hp _, emits_write rfl rfl, emits_write rfl rfl⟩
  | flushFail _ hp ha =>
    obtain ⟨-, -, -, hbuf, -⟩ := h.stream (.inr hp)
    rw [hbuf]
    exact ⟨_, [⟨s'.buf, .fail⟩], [.ioError], .flushFail hr' (h.phase ▸ hp) (h.answers ▸ ha),
      (h.recordWrite _ _).emptyBuffer.complete _, ⟨rfl, rfl⟩, rfl, rfl⟩
  | settleDone _ hp =>
    exact ⟨_, [], [.ok], .settleDone hr' (h.phase ▸ hp), h.complete _, emits_result rfl rfl, emits_result rfl rfl⟩

/-- Blocks that agree run alike, for any number of steps. -/
theorem run_alike {n : Nat} {s s' t : State} (h : Alike s s') (hrun : run n s = .next t) :
    ∃ t' ws rs, run n s' = .next t' ∧ Alike t t' ∧ Emits s t ws rs ∧ Emits s' t' ws rs := by
  induction n generalizing s s' with
  | zero =>
    obtain rfl : s = t := by simpa using hrun
    exact ⟨s', [], [], rfl, h, emits_nothing rfl rfl, emits_nothing rfl rfl⟩
  | succ n ih =>
    obtain ⟨u, hu, hrest⟩ := step_of_run hrun
    obtain ⟨hwf, hstep⟩ := step_cases hu
    obtain ⟨u', ws, rs, hstep', hu', hemits, hemits'⟩ := hstep.alike h
    obtain ⟨t', ws', rs', hrun', ht', hmore, hmore'⟩ := ih hu' hrest
    refine ⟨t', ws ++ ws', rs ++ rs', ?_, ht', hemits.trans hmore, hemits'.trans hmore'⟩
    rw [run_succ (step_of_stepTo (h.cfg ▸ hwf) hstep'), hrun']

/-- Settles O51: idle blocks with the same configuration and ports agree, and blocks that agree run alike. -/
theorem operationsAreIndependent : Obligations.OperationsAreIndependent := by
  intro s s' n t hp hp' hcfg hrequests hanswers hr hr' hrun
  obtain ⟨t', ws, rs, hrun', ht, ⟨hhist, hresults⟩, hhist', hresults'⟩ :=
    run_alike (alike_of_idle hp hp' hcfg hrequests hanswers hr hr') hrun
  refine ⟨t', hrun', ht.phase, ?_, ?_, ht.requests, ht.answers⟩
  · rw [hhist, hhist', List.drop_left, List.drop_left]
  · rw [hresults, hresults', List.drop_left, List.drop_left]

end Sys2Proof.Machine
end

section
/-! SUPPORT. What a step fetches, what the host reads of STATUS, and the state after reset (10_state.md R22, R28, R36). -/

namespace Sys2Proof.Machine

open Safety

/-- Settles O24: the request on the port in IDLE, the latched operation in FRAME, FLUSH and SETTLE. -/
theorem stepRunsTheInstruction : Obligations.StepRunsTheInstruction := by
  intro s hwf hr
  refine ⟨fun p rest i hp hq hd => step_request s hwf hr hp hq hd, fun hp hq => step_rest s hwf hr hp hq, fun hp => ?_⟩
  have hbusy : s.phase ≠ .idle := by
    rintro hidle
    simp [hidle] at hp
  rw [step_busy s hwf hr hbusy, exec_latched s hwf hbusy]

theorem State.busy_eq_one (s : State) : s.busy = 1 ↔ s.phase ≠ .idle := by
  unfold State.busy
  split <;> simp_all

/-- Settles O28: BUSY is derived from the phase, and the three results have three codes other than 3. -/
theorem statusReadsPhaseAndResult : Obligations.StatusReadsPhaseAndResult := by
  intro s
  refine ⟨s.busy_eq_one, ?_⟩
  simp only [readStatus]
  cases s.result <;> decide

/-- Settles O29, by the values of `State.reset`. -/
theorem resetLeavesTheBlockIdle : Obligations.ResetLeavesTheBlockIdle := ⟨rfl, rfl, rfl, rfl, rfl⟩

/-- Settles O31: the block is idle with an empty buffer, no history, an empty wire, and nothing on its ports. -/
theorem resetMeetsTheInvariants : Obligations.ResetMeetsTheInvariants := by
  refine ⟨inv_of_idle (by decide) rfl rfl rfl, ?_, ⟨[], [], rfl, rfl⟩, ⟨reset_pixels_wf.2, ?_⟩, ?_⟩
  · rintro (hp | hp) <;> cases hp
  · exact fun p hp => absurd hp List.not_mem_nil
  · exact fun v hv => absurd hv List.not_mem_nil

end Sys2Proof.Machine
end

section
/-! SUPPORT. The pixel-buffer space (20_memory.md): a buffer in canonical form is determined by what it reads, a buffer
made of elements reads them back, and the sizes of the writes in HIST (R55, R59). -/

namespace Sys2Proof.Machine

@[simp] theorem readByte_cons_self (a : Nat) (v : Byte) (rest : Memory) : readByte ((a, v) :: rest) a = some v :=
  if_pos rfl

theorem readByte_cons_of_ne {a n : Nat} (v : Byte) (rest : Memory) (h : a ≠ n) :
    readByte ((a, v) :: rest) n = readByte rest n :=
  if_neg h

/-- The first cell of a canonical buffer has the lowest address that holds a value. -/
theorem head_le_of_readByte {lo a n : Nat} {v x : Byte} {rest : Memory} (h : risingFrom lo ((a, v) :: rest) = true)
    (hn : readByte ((a, v) :: rest) n = some x) : a ≤ n := by
  obtain ⟨-, hrest⟩ := (risingFrom_cons lo a v rest).1 h
  by_contra hlt
  rw [readByte_below ((risingFrom_cons a a v rest).2 ⟨le_rfl, hrest⟩) (Nat.lt_of_not_le hlt)] at hn
  cases hn

/-- Cells that rise from a common bound and read alike are the same cells: the first ones have one address, the lowest
that reads a value, and one byte, what is read there; the rest read alike above it. -/
theorem eq_of_readByte_eq {lo : Nat} {m m' : Memory} (hm : risingFrom lo m = true) (hm' : risingFrom lo m' = true)
    (h : ∀ n, readByte m n = readByte m' n) : m = m' := by
  induction m generalizing lo m' with
  | nil =>
    cases m' with
    | nil => rfl
    | cons c' rest' =>
      obtain ⟨a', v'⟩ := c'
      simpa using h a'
  | cons c rest ih =>
    obtain ⟨a, v⟩ := c
    cases m' with
    | nil => simpa using h a
    | cons c' rest' =>
      obtain ⟨a', v'⟩ := c'
      obtain rfl : a = a' :=
        le_antisymm (head_le_of_readByte hm ((h a').trans (readByte_cons_self a' v' rest')))
          (head_le_of_readByte hm' ((h a).symm.trans (readByte_cons_self a v rest)))
      obtain rfl : v = v' := by simpa using h a
      obtain ⟨-, hrest⟩ := (risingFrom_cons lo a v rest).1 hm
      obtain ⟨-, hrest'⟩ := (risingFrom_cons lo a v rest').1 hm'
      rw [ih hrest hrest' fun n => ?_]
      by_cases hn : a = n
      · subst hn
        rw [readByte_below hrest (Nat.lt_succ_self a), readByte_below hrest' (Nat.lt_succ_self a)]
      · rw [← readByte_cons_of_ne v rest hn, ← readByte_cons_of_ne v rest' hn, h n]

/-- Settles O45: the canonical form rises from 0. -/
theorem canonicalBuffersAreData : Obligations.CanonicalBuffersAreData :=
  fun _ _ hm hm' h => eq_of_readByte_eq hm hm' h

/-- The elements of a row of pixels are read at the indices from its first one on, and none after its last. -/
theorem memRead_cellsFrom (ps : List Pixel) (i k : Nat) : memRead (cellsFrom i ps) (i + k) = ps[k]? := by
  induction ps generalizing i k with
  | nil => rfl
  | cons p rest ih =>
    cases k with
    | zero => exact memRead_cellsFrom_head p rest i
    | succ k =>
      calc memRead (cellsFrom i (p :: rest)) (i + (k + 1))
          = memRead (cellsFrom (i + 1) rest) (i + (k + 1)) := memRead_cellsFrom_tail p rest (by omega)
        _ = memRead (cellsFrom (i + 1) rest) (i + 1 + k) := by rw [Nat.add_right_comm, Nat.add_assoc]
        _ = rest[k]? := ih (i + 1) k
        _ = (p :: rest)[k + 1]? := List.getElem?_cons_succ.symm

/-- Settles O44: a buffer is the row of its elements from index 0. -/
theorem pixelBufferReadsBack : Obligations.PixelBufferReadsBack := by
  intro ps
  refine ⟨cellsFrom_rising ps (Nat.zero_le _), fun i => ?_⟩
  rw [bufferOf, ← memRead_cellsFrom ps 0 i, Nat.zero_add]

/-- What a transition does to HIST: block reset empties it, the transitions out of FRAME and FLUSH add the one write
they issue, any other leaves it (10_state.md R32, 42_pixel_streamer.md R143 to R149). -/
theorem StepTo.hist_cases {s t : State} (h : StepTo s t) :
    t.hist = [] ∨ t.hist = s.hist
    ∨ (s.phase = .frame ∧ ∃ a, t.hist = s.hist ++ [⟨s.frameBytes, a⟩])
    ∨ (s.phase = .flush ∧ ∃ a, t.hist = s.hist ++ [⟨s.buf, a⟩]) := by
  cases h with
  | reset => exact .inl rfl
  | accept => exact .inr (.inl (by simp [Machine.accept]))
  | pixel => exact .inr (.inl (appendWord_hist _ s))
  | frameOkControl _ hp | frameOkBlit _ hp | frameFail _ hp => exact .inr (.inr (.inl ⟨hp, _, rfl⟩))
  | flushOkMore _ hp | flushOkEnd _ hp | flushFail _ hp => exact .inr (.inr (.inr ⟨hp, _, rfl⟩))
  | _ => exact .inr (.inl rfl)

end Sys2Proof.Machine

namespace Sys2Proof.Safety

open Machine

/-- A frame is 6 bytes, whatever the latches hold (20_memory.md R55). -/
theorem writeFits_frame (s : State) (a : Answer) : writeFits s.cfg ⟨s.frameBytes, a⟩ := .inl (encodeFrame_length ..)

/-- In FLUSH the buffer is a chunk: not empty, whole byte pairs, at most CHUNK_BYTES (10_state.md R37). -/
theorem Inv.writeFits_chunk {s : State} (h : Inv s) (hflush : s.phase = .flush) (a : Answer) :
    writeFits s.cfg ⟨s.buf, a⟩ := by
  obtain ⟨hpos, -⟩ := h.flush_ready hflush
  have heven := h.fill_even
  have hle := h.fill_le
  rw [h.fill_eq] at hpos heven hle
  exact .inr ⟨by show 2 ≤ s.buf.length; omega, hle, heven⟩

/-- Settles O35: the one write a transition may add is the frame, or in FLUSH the chunk; both fit. -/
theorem stepKeepsWriteSizes : Obligations.StepKeepsWriteSizes := by
  intro s t h hfits hstep
  obtain ⟨-, hcase⟩ := step_cases hstep
  rw [hcase.cfg_eq]
  obtain e | e | ⟨-, a, e⟩ | ⟨hflush, a, e⟩ := hcase.hist_cases <;> rw [e]
  · exact fun v hv => absurd hv List.not_mem_nil
  · exact hfits
  · exact List.forall_mem_append.2 ⟨hfits, List.forall_mem_singleton.2 (writeFits_frame s a)⟩
  · exact List.forall_mem_append.2 ⟨hfits, List.forall_mem_singleton.2 (h.writeFits_chunk hflush a)⟩

end Sys2Proof.Safety
end

section
/-! SUPPORT. The wire formats both ways (30_encoding.md R98): a frame's bytes and its fields, a data word's bytes and its
lanes; then `decode` and `encode` as inverses. -/

namespace Sys2Proof

open Machine

/-! A frame's bytes and its fields. -/

/-- A frame is six given bytes exactly when its operands are the fields extracted from them (30_encoding.md R98,
41_frame_encoder.md R126). -/
theorem encodeFrame_eq_iff {cmd : Byte} {x y ex ey : Coord} {b0 b1 b2 b3 b4 b5 : Byte} :
    encodeFrame cmd x y ex ey = [b0, b1, b2, b3, b4, b5] ↔
      cmd = b5 ∧ x = frameX b0 b1 ∧ y = frameY b1 b2 ∧ ex = frameEx b2 b3 ∧ ey = frameEy b3 b4 := by
  have := b0.isLt; have := b1.isLt; have := b2.isLt; have := b3.isLt; have := b4.isLt
  have := x.isLt; have := y.isLt; have := ex.isLt; have := ey.isLt
  have hinj := List.map_injective_iff.2 fun (a b : Byte) => BitVec.eq_of_toNat_eq (x := a) (y := b)
  rw [← hinj.eq_iff, encodeFrame_toNat]
  simp only [List.map_cons, List.map_nil, List.cons.injEq, and_true, ← BitVec.toNat_inj, frameX_toNat, frameY_toNat,
    frameEx_toNat, frameEy_toNat]
  constructor
  · rintro ⟨h0, h1, h2, h3, h4, h5⟩
    refine ⟨h5, ?_, ?_, ?_, ?_⟩ <;> omega
  · rintro ⟨h5, hx, hy, hex, hey⟩
    refine ⟨?_, ?_, ?_, ?_, ?_, h5⟩ <;> omega

/-- Where a frame stands, what decodes is six bytes that are the frame of fields that decode. -/
theorem decode_command_eq_ok_iff {order : ByteOrder} {bytes rest : List Byte} {i : Instr} :
    decode order .command bytes = .ok (i, rest) ↔
      ∃ cmd x y ex ey, bytes = encodeFrame cmd x y ex ey ++ rest ∧ decodeFields cmd x y ex ey = .ok i := by
  constructor
  · intro h
    simp only [decode] at h
    split at h
    · next b0 b1 b2 b3 b4 b5 tail =>
      split at h
      · next hfields =>
        obtain ⟨rfl, rfl⟩ := Prod.mk.inj (Except.ok.inj h)
        exact ⟨_, _, _, _, _, by rw [encodeFrame_eq_iff.2 ⟨rfl, rfl, rfl, rfl, rfl⟩]; rfl, hfields⟩
      · cases h
    · cases h
  · rintro ⟨cmd, x, y, ex, ey, rfl, hfields⟩
    obtain ⟨b0, b1, b2, b3, b4, b5, hbytes⟩ : ∃ b0 b1 b2 b3 b4 b5, encodeFrame cmd x y ex ey = [b0, b1, b2, b3, b4, b5] :=
      ⟨_, _, _, _, _, _, rfl⟩
    obtain ⟨rfl, rfl, rfl, rfl, rfl⟩ := encodeFrame_eq_iff.1 hbytes
    simp only [hbytes, List.cons_append, List.nil_append, decode, hfields]

/-! The fields of a frame and the instruction they stand for. -/

theorem decodeControl_eq_ok_iff {i j : Instr} {x y ex ey : Coord} :
    decodeControl i x y ex ey = .ok j ↔ i = j ∧ x = 0 ∧ y = 0 ∧ ex = 0 ∧ ey = 0 := by
  unfold decodeControl
  by_cases h : x = 0 ∧ y = 0 ∧ ex = 0 ∧ ey = 0
  · simp only [h, and_self, if_true, Except.ok.injEq, and_true]
  · simp only [h, if_false, and_false, reduceCtorEq]

/-- A well-formed command is what the fields of its frame stand for (30_encoding.md R86 to R88). -/
theorem exists_fields_of_wellFormed (order : ByteOrder) {i : Instr} (hi : slotOf i = .command)
    (hwf : i.wellFormed = true) :
    ∃ cmd x y ex ey, encode order i = encodeFrame cmd x y ex ey ∧ decodeFields cmd x y ex ey = .ok i := by
  cases i with
  | reset => exact ⟨_, _, _, _, _, rfl, rfl⟩
  | clear => exact ⟨_, _, _, _, _, rfl, rfl⟩
  | screenOff => exact ⟨_, _, _, _, _, rfl, rfl⟩
  | screenOn => exact ⟨_, _, _, _, _, rfl, rfl⟩
  | setBrightness level =>
    obtain ⟨hlo, hhi⟩ := of_decide_eq_true hwf
    have elevel := toNat_ofInt_of_fits (n := 10) hlo (by omega)
    refine ⟨_, _, _, _, _, rfl, ?_⟩
    have hle : (BitVec.ofInt 10 level).toNat ≤ 255 := by omega
    simp only [decodeFields, commandOf_opcode, and_self, if_true, if_pos hle, elevel]
  | displayBitmap x y w h =>
    obtain ⟨hw, hh, hx, hy, hex, hey⟩ := of_decide_eq_true hwf
    have ex := toNat_ofInt_of_fits (n := 10) hx (by omega)
    have ey := toNat_ofInt_of_fits (n := 10) hy (by omega)
    have eex := toNat_ofInt_of_fits (n := 10) (v := x + w - 1) (by omega) (by omega)
    have eey := toNat_ofInt_of_fits (n := 10) (v := y + h - 1) (by omega) (by omega)
    refine ⟨_, _, _, _, _, rfl, ?_⟩
    simp only [decodeFields, commandOf_opcode]
    rw [if_pos (by omega), ex, ey, eex, eey]
    congr 2 <;> omega
  | pixel16 r g b => cases hi

/-- Fields that decode are the operands of the frame of a well-formed command: the decoder's checks are the ones of
30_encoding.md R94. -/
theorem wellFormed_of_decodeFields (order : ByteOrder) {cmd : Byte} {x y ex ey : Coord} {i : Instr}
    (h : decodeFields cmd x y ex ey = .ok i) :
    i.wellFormed = true ∧ slotOf i = .command ∧ encode order i = encodeFrame cmd x y ex ey := by
  cases hc : commandOf cmd with
  | none => simp [decodeFields, hc] at h
  | some c =>
    obtain rfl := commandOf_eq_some.1 hc
    cases c with
    | setBrightness =>
      simp only [decodeFields, hc] at h
      split_ifs at h with hzero hlevel
      obtain rfl := Except.ok.inj h
      obtain ⟨rfl, rfl, rfl⟩ := hzero
      refine ⟨decide_eq_true (by omega), rfl, ?_⟩
      simp only [encode, BitVec.ofInt_natCast, BitVec.ofNat_toNat, BitVec.setWidth_eq]
    | displayBitmap =>
      simp only [decodeFields, hc] at h
      split_ifs at h with hrect
      obtain rfl := Except.ok.inj h
      obtain ⟨hxe, hye⟩ := hrect
      have := ex.isLt; have := ey.isLt
      have eex : (x.toNat : Int) + ((ex.toNat : Int) - x.toNat + 1) - 1 = ex.toNat := by omega
      have eey : (y.toNat : Int) + ((ey.toNat : Int) - y.toNat + 1) - 1 = ey.toNat := by omega
      refine ⟨decide_eq_true (by omega), rfl, ?_⟩
      simp only [encode, eex, eey, BitVec.ofInt_natCast, BitVec.ofNat_toNat, BitVec.setWidth_eq]
    | _ =>
      simp only [decodeFields, hc] at h
      obtain ⟨rfl, rfl, rfl, rfl, rfl⟩ := decodeControl_eq_ok_iff.1 h
      exact ⟨rfl, rfl, rfl⟩

/-! A data word's bytes and its lanes. -/

/-- The two bytes of a word in either order, read back (40_color_converter.md R114). -/
theorem wordBytes_eq_iff {order : ByteOrder} {v : PixelWord} {b0 b1 : Byte} :
    wordBytes order v = [b0, b1] ↔ wordOfBytes order b0 b1 = v := by
  have hlow (hi lo : Byte) : (hi ++ lo : PixelWord).extractLsb' 0 8 = lo := by
    rw [BitVec.extractLsb'_append_eq_right]
  have hhigh (hi lo : Byte) : (hi ++ lo : PixelWord).extractLsb' 8 8 = hi := by
    rw [BitVec.extractLsb'_append_eq_left]
  have hjoin : v.extractLsb' 8 8 ++ v.extractLsb' 0 8 = v := by
    rw [BitVec.extractLsb'_append_extractLsb'_eq_extractLsb' (by rfl), BitVec.extractLsb'_eq_self]
  cases order with
  | le =>
    simp only [wordBytes, wordOfBytes, List.cons.injEq, and_true]
    exact ⟨by rintro ⟨rfl, rfl⟩; exact hjoin, by rintro rfl; exact ⟨hlow b1 b0, hhigh b1 b0⟩⟩
  | be =>
    simp only [wordBytes, wordOfBytes, List.cons.injEq, and_true]
    exact ⟨by rintro ⟨rfl, rfl⟩; exact hjoin, by rintro rfl; exact ⟨hhigh b0 b1, hlow b0 b1⟩⟩

/-- The word that three lanes make has those lanes (30_encoding.md R89). -/
@[simp] theorem instrOfWord_wordOfLanes (r : BitVec 5) (g : BitVec 6) (b : BitVec 5) :
    instrOfWord (wordOfLanes r g b) = .pixel16 r g b := by
  have hb : (r ++ g ++ b : PixelWord).extractLsb' 0 5 = b := by
    rw [BitVec.extractLsb'_append_eq_right]
  have hg : (r ++ g ++ b : PixelWord).extractLsb' 5 6 = g := by
    rw [BitVec.extractLsb'_append_eq_of_le (by omega), BitVec.extractLsb'_append_eq_right]
  have hr : (r ++ g ++ b : PixelWord).extractLsb' 11 5 = r := by
    rw [BitVec.extractLsb'_append_eq_of_le (by omega), BitVec.extractLsb'_append_eq_left]
  rw [instrOfWord, wordOfLanes, hr, hg, hb]

@[simp] theorem encode_instrOfWord (order : ByteOrder) (v : PixelWord) : encode order (instrOfWord v) = wordBytes order v :=
  congrArg (wordBytes order) (wordOfLanes_extract v)

/-- Where a data word stands, what decodes is the two bytes of a word. -/
theorem decode_dataWord_eq_ok_iff {order : ByteOrder} {bytes rest : List Byte} {i : Instr} :
    decode order .dataWord bytes = .ok (i, rest) ↔ ∃ v, bytes = wordBytes order v ++ rest ∧ instrOfWord v = i := by
  constructor
  · intro h
    simp only [decode] at h
    split at h
    · next b0 b1 tail =>
      obtain ⟨rfl, rfl⟩ := Prod.mk.inj (Except.ok.inj h)
      exact ⟨_, by rw [wordBytes_eq_iff.2 rfl]; rfl, rfl⟩
    · cases h
  · rintro ⟨v, rfl, rfl⟩
    obtain ⟨b0, b1, hbytes⟩ : ∃ b0 b1, wordBytes order v = [b0, b1] := by cases order <;> exact ⟨_, _, rfl⟩
    obtain rfl := wordBytes_eq_iff.1 hbytes
    simp only [hbytes, List.cons_append, List.nil_append, decode]

/-! The two directions of the round trip, and words written out. -/

/-- Settles O1: a command's frame decodes by its fields, a data word by its lanes. -/
theorem decodeInvertsEncode : Obligations.DecodeInvertsEncode := by
  intro order i rest hwf
  cases hi : slotOf i with
  | command =>
    obtain ⟨cmd, x, y, ex, ey, hframe, hfields⟩ := exists_fields_of_wellFormed order hi hwf
    exact decode_command_eq_ok_iff.2 ⟨cmd, x, y, ex, ey, by rw [hframe], hfields⟩
  | dataWord =>
    cases i with
    | pixel16 r g b => exact decode_dataWord_eq_ok_iff.2 ⟨wordOfLanes r g b, rfl, instrOfWord_wordOfLanes r g b⟩
    | _ => cases hi

/-- Settles O2: the bytes that decode are a frame whose fields passed the decoder's checks, or any data word. -/
theorem encodeInvertsDecode : Obligations.EncodeInvertsDecode := by
  intro order slot bytes i rest h
  cases slot with
  | command =>
    obtain ⟨cmd, x, y, ex, ey, rfl, hfields⟩ := decode_command_eq_ok_iff.1 h
    obtain ⟨hwf, hslot, hframe⟩ := wellFormed_of_decodeFields order hfields
    exact ⟨hwf, hslot, by rw [hframe]⟩
  | dataWord =>
    obtain ⟨v, rfl, rfl⟩ := decode_dataWord_eq_ok_iff.1 h
    exact ⟨rfl, rfl, by rw [encode_instrOfWord]⟩

/-- Settles O6: each of the six evaluates. -/
theorem knownWordsDecode : Obligations.KnownWordsDecode := ⟨rfl, rfl, rfl, rfl, rfl, rfl⟩

end Sys2Proof
end

section
/-! SUPPORT. The operation the latches hold (30_encoding.md R93, R94), the payload's bytes from any element on and their
cut into chunks (42_pixel_streamer.md R152, R153), and the wire stream of a whole operation read back (30_encoding.md
R98). -/

namespace Sys2Proof.Machine

open Safety

/-! Valid operations and the latches that hold them. -/

/-- No data word is a valid operation. -/
theorem slotOf_of_valid {c : Config} {i : Instr} (hv : valid c i = true) : slotOf i = .command := by
  cases i with
  | pixel16 r g b => cases hv
  | _ => rfl

/-- A valid operation has a frame: the display is at most 1024 × 1024 (00_scope.md R11, 30_encoding.md R84). -/
theorem wellFormed_of_valid {c : Config} {i : Instr} (hwf : c.wf = true) (hv : valid c i = true) :
    i.wellFormed = true := by
  cases i with
  | setBrightness level => exact hv
  | displayBitmap x y w h =>
    obtain ⟨hw, hh, hx, hy, hex, hey⟩ := (valid_displayBitmap_iff c x y w h).1 hv
    obtain ⟨-, hdw, -, hdh, -⟩ := c.wf_iff.1 hwf
    exact decide_eq_true ⟨hw, hh, hx, hy, by omega, by omega⟩
  | pixel16 r g b => cases hv
  | _ => rfl

/-- Latches that fit hold a valid operation (43_display_commands.md R164, R165). -/
theorem valid_latched {s : State} (hfit : latchesFit s) : valid s.cfg s.latched = true := by
  cases hc : s.cmd with
  | setBrightness =>
    obtain ⟨hlevel, -⟩ : s.fx.toNat ≤ 255 ∧ _ := by simpa only [latchesFit, hc] using hfit
    simp only [State.latched, hc]
    exact (valid_setBrightness_iff s.cfg _).2 ⟨by omega, by omega⟩
  | displayBitmap =>
    simp only [latchesFit, hc] at hfit
    simp only [State.latched, hc]
    exact (valid_displayBitmap_iff s.cfg _ _ _ _).2 (by omega)
  | _ => simp only [State.latched, hc, valid]

/-- The frame of latches that fit is the encoding of the operation they hold. -/
theorem frameBytes_eq_encode_latched {s : State} (hfit : latchesFit s) (order : ByteOrder) :
    s.frameBytes = encode order s.latched := by
  cases hc : s.cmd with
  | setBrightness =>
    simp only [latchesFit, hc] at hfit
    obtain ⟨-, hfy, hfex, hfey⟩ := hfit
    simp only [State.frameBytes, State.latched, hc, encode, hfy, hfex, hfey, BitVec.ofInt_natCast, BitVec.ofNat_toNat,
      BitVec.setWidth_eq]
  | displayBitmap =>
    simp only [latchesFit, hc] at hfit
    obtain ⟨-, -, hx, -, hy, -⟩ := hfit
    have eex : (s.fx.toNat : Int) + s.w.toNat - 1 = s.fex.toNat := by omega
    have eey : (s.fy.toNat : Int) + s.h.toNat - 1 = s.fey.toNat := by omega
    simp only [State.frameBytes, State.latched, hc, encode, eex, eey, BitVec.ofInt_natCast, BitVec.ofNat_toNat,
      BitVec.setWidth_eq]
  | _ =>
    simp only [latchesFit, hc] at hfit
    obtain ⟨hfx, hfy, hfex, hfey⟩ := hfit
    simp only [State.frameBytes, State.latched, hc, encode, hfx, hfy, hfex, hfey]

/-- Settles O42: under the invariants the latches of a busy block fit. -/
theorem onlyValidFramesAreSent : Obligations.OnlyValidFramesAreSent := by
  intro s h hbusy
  have hfit := h.latches hbusy
  have hv := valid_latched hfit
  exact ⟨hv, wellFormed_of_valid h.cfg_wf hv, frameBytes_eq_encode_latched hfit _⟩

/-! The payload from an element on. -/

/-- The wire bytes of elements `i` .. `n − 1` in index order. -/
def payloadFrom (order : ByteOrder) (pix : Nat → Pixel) (i n : Nat) : List Byte :=
  (List.range' i (n - i)).flatMap fun j => wordBytes order (pixelWord (pix j))

theorem payload_eq_payloadFrom (order : ByteOrder) (w h : Nat) (pix : Nat → Pixel) :
    payload order w h pix = payloadFrom order pix 0 (w * h) := by
  rw [payload, payloadPrefix, payloadFrom, Nat.sub_zero, List.range_eq_range']

@[simp] theorem payloadFrom_self (order : ByteOrder) (pix : Nat → Pixel) (n : Nat) : payloadFrom order pix n n = [] := by
  simp [payloadFrom]

theorem payloadFrom_of_lt (order : ByteOrder) (pix : Nat → Pixel) {i n : Nat} (h : i < n) :
    payloadFrom order pix i n = wordBytes order (pixelWord (pix i)) ++ payloadFrom order pix (i + 1) n := by
  have hcount : n - i = n - (i + 1) + 1 := by omega
  rw [payloadFrom, hcount, List.range'_succ, List.flatMap_cons, payloadFrom]

@[simp] theorem payloadFrom_length (order : ByteOrder) (pix : Nat → Pixel) (i n : Nat) :
    (payloadFrom order pix i n).length = 2 * (n - i) := by
  simp [payloadFrom, Nat.mul_comm]

/-! Chunks, by their recursion: the first chunk, then the chunks of what is left. -/

theorem chunkCount_zero {c : Nat} (hc : 1 ≤ c) : chunkCount 0 c = 0 := Nat.div_eq_of_lt (by omega)

theorem chunkCount_of_pos {n c : Nat} (hn : 1 ≤ n) (hc : 1 ≤ c) : chunkCount n c = chunkCount (n - c) c + 1 := by
  unfold chunkCount
  by_cases h : c ≤ n
  · have e : n + c - 1 = n - c + c - 1 + c := by omega
    rw [e, Nat.add_div_right _ hc]
  · have e : n + c - 1 = n - 1 + c := by omega
    rw [e, Nat.add_div_right _ hc, Nat.div_eq_of_lt (by omega), Nat.div_eq_of_lt (by omega)]

@[simp] theorem chunks_length (s : List Byte) (c : Nat) : (chunks s c).length = chunkCount s.length c := by simp [chunks]

theorem chunks_nil {c : Nat} (hc : 1 ≤ c) : chunks [] c = [] :=
  List.length_eq_zero_iff.1 ((chunks_length [] c).trans (chunkCount_zero hc))

theorem chunks_of_ne_nil {s : List Byte} {c : Nat} (hs : s ≠ []) (hc : 1 ≤ c) :
    chunks s c = s.take c :: chunks (s.drop c) c := by
  have hcount := chunkCount_of_pos (List.length_pos_iff.2 hs) hc
  simp only [chunks, hcount, List.range_succ_eq_map, List.map_cons, List.map_map, List.length_drop, List.drop_drop]
  simp [Function.comp_def, Nat.succ_mul, Nat.add_comm]

/-- A chunk that is full, or the last one, is cut off whole. -/
theorem chunks_append {b rest : List Byte} {c : Nat} (hb : b ≠ []) (hc : 1 ≤ c)
    (hcut : b.length = c ∨ b.length ≤ c ∧ rest = []) : chunks (b ++ rest) c = b :: chunks rest c := by
  rw [chunks_of_ne_nil (by simp [hb]) hc]
  obtain rfl | ⟨hle, rfl⟩ := hcut
  · rw [List.take_left, List.drop_left]
  · rw [List.append_nil, List.take_of_length_le hle, List.drop_of_length_le hle]

/-- The chunks of a byte sequence are together the sequence (42_pixel_streamer.md R153). -/
theorem chunks_flatten (s : List Byte) {c : Nat} (hc : 1 ≤ c) : (chunks s c).flatten = s := by
  by_cases hs : s = []
  · rw [hs, chunks_nil hc, List.flatten_nil]
  · have hpos := List.length_pos_iff.2 hs
    rw [chunks_of_ne_nil hs hc, List.flatten_cons, chunks_flatten (s.drop c) hc, List.take_append_drop]
termination_by s.length
decreasing_by rw [List.length_drop]; omega

/-! The wire stream of a whole operation (42_pixel_streamer.md R154). -/

/-- The data words' bytes that follow an operation's frame: the payload of a DisplayBitmap, nothing after any other
(30_encoding.md R80, R91). -/
def payloadOf (order : ByteOrder) (i : Instr) (pix : Nat → Pixel) : List Byte :=
  payloadFrom order pix 0 (payloadWords i)

theorem operationWrites_flatten {c : Config} {i : Instr} (pix : Nat → Pixel) (hwf : c.wf = true)
    (hv : valid c i = true) :
    (operationWrites c i pix).flatten = encode c.byteOrder i ++ payloadOf c.byteOrder i pix := by
  cases i with
  | displayBitmap x y w h =>
    rw [operationWrites, List.flatten_cons, chunks_flatten _ (Config.chunkBytes_pos hwf), payload_eq_payloadFrom]
    rfl
  | pixel16 r g b => cases hv
  | _ => simp [operationWrites, payloadOf, payloadWords]

/-- A stream that begins with an instruction where one of its format is due decodes to it and to what follows. -/
theorem decodeStreamFrom_cons {order : ByteOrder} {fuel pending : Nat} {i : Instr} {rest : List Byte}
    (hi : i.wellFormed = true) (hslot : slotOf i = if pending = 0 then .command else .dataWord) :
    decodeStreamFrom order (fuel + 1) pending (encode order i ++ rest)
      = (decodeStreamFrom order fuel (if pending = 0 then payloadWords i else pending - 1) rest).map (i :: ·) := by
  have hdecode := decodeInvertsEncode order i rest hi
  rw [hslot] at hdecode
  have hbytes : encode order i ++ rest ≠ [] := by
    intro hnil
    rw [hnil] at hdecode
    split_ifs at hdecode <;> cases hdecode
  rw [decodeStreamFrom, if_neg fun hend => hbytes hend.2, hdecode]

theorem decodeStreamFrom_end (order : ByteOrder) (fuel : Nat) : decodeStreamFrom order fuel 0 [] = some [] := by
  cases fuel <;> rfl

/-- The words of a payload decode one by one, in index order. -/
theorem decodeStreamFrom_payload (order : ByteOrder) (pix : Nat → Pixel) (pending i fuel : Nat) (hfuel : pending ≤ fuel) :
    decodeStreamFrom order fuel pending (payloadFrom order pix i (i + pending))
      = some ((List.range' i pending).map fun j => instrOfWord (pixelWord (pix j))) := by
  induction pending generalizing i fuel with
  | zero => rw [Nat.add_zero, payloadFrom_self, decodeStreamFrom_end]; rfl
  | succ k ih =>
    obtain ⟨fuel, rfl⟩ := Nat.exists_eq_add_of_le' (Nat.one_le_of_lt hfuel)
    have e : i + (k + 1) = i + 1 + k := by omega
    rw [payloadFrom_of_lt order pix (by omega), ← encode_instrOfWord, decodeStreamFrom_cons rfl rfl, e]
    simp only [Nat.add_eq_zero_iff, one_ne_zero, and_false, if_false, Nat.add_sub_cancel]
    rw [ih (i + 1) fuel (by omega)]
    rfl

/-- Settles O7: the frame decodes to the operation, after which its data words are due, and these decode one by one. -/
theorem operationStreamDecodes : Obligations.OperationStreamDecodes := by
  intro c i pix hwf hv
  have hlen : (encode c.byteOrder i ++ payloadOf c.byteOrder i pix).length = 5 + 2 * payloadWords i + 1 := by
    obtain ⟨_, _, _, _, _, hframe, -⟩ :=
      exists_fields_of_wellFormed c.byteOrder (slotOf_of_valid hv) (wellFormed_of_valid hwf hv)
    rw [List.length_append, hframe, encodeFrame_length, payloadOf, payloadFrom_length]
    omega
  rw [operationWrites_flatten pix hwf hv, decodeStream, hlen,
    decodeStreamFrom_cons (pending := 0) (wellFormed_of_valid hwf hv) (slotOf_of_valid hv), if_pos rfl, payloadOf]
  have hpayload := decodeStreamFrom_payload c.byteOrder pix (payloadWords i) 0 (5 + 2 * payloadWords i) (by omega)
  rw [Nat.zero_add] at hpayload
  rw [hpayload, List.range_eq_range']
  rfl

end Sys2Proof.Machine
end

section
/-! SUPPORT. The run of a valid operation whose writes are all answered `ok`, from its request to its result
(42_pixel_streamer.md R154, R159), by what a DisplayBitmap in progress has still to send. -/

namespace Sys2Proof.Machine

open Safety

/-! What a run adds to what is observed when every write is answered `ok`. -/

/-- From `s` to `t` these writes, each answered `ok`, and these results; the requests, the configuration and the free-value
counter stay as they are. -/
structure Sends (s t : State) (writes : List (List Byte)) (results : List Result) : Prop where
  emits : Emits s t (writes.map fun b => { bytes := b, outcome := .ok }) results
  wire : t.wire = s.wire ++ writes.flatten
  answers : s.answers = List.replicate writes.length .ok ++ t.answers
  requests : t.requests = s.requests
  cfg : t.cfg = s.cfg
  draws : t.draws = s.draws

theorem Sends.trans {s t u : State} {ws ws' : List (List Byte)} {rs rs' : List Result} (h : Sends s t ws rs)
    (h' : Sends t u ws' rs') : Sends s u (ws ++ ws') (rs ++ rs') where
  emits := by simpa using h.emits.trans h'.emits
  wire := by rw [h'.wire, h.wire, List.flatten_append, List.append_assoc]
  answers := by
    rw [h.answers, h'.answers, List.length_append, ← List.replicate_append_replicate, List.append_assoc]
  requests := h'.requests.trans h.requests
  cfg := h'.cfg.trans h.cfg
  draws := h'.draws.trans h.draws

theorem sends_refl (s : State) : Sends s s [] [] where
  emits := emits_nothing rfl rfl
  wire := (List.append_nil _).symm
  answers := rfl
  requests := rfl
  cfg := rfl
  draws := rfl

theorem sends_recordWrite {s : State} {more : List Answer} (ha : s.answers = .ok :: more) (b : List Byte) :
    Sends s (recordWrite b .ok s) [b] [] where
  emits := emits_write rfl rfl
  wire := by simp
  answers := by simp [ha]
  requests := rfl
  cfg := rfl
  draws := rfl

theorem sends_complete (s : State) (r : Result) : Sends s (complete r s) [] [r] where
  emits := emits_result rfl rfl
  wire := by simp
  answers := rfl
  requests := rfl
  cfg := rfl
  draws := rfl

theorem sends_appendWord (s : State) (v : PixelWord) : Sends s (appendWord v s) [] [] where
  emits := emits_nothing (by simp) (by simp)
  wire := by simp
  answers := by simp
  requests := by simp
  cfg := by simp
  draws := by simp

theorem sends_accept (i : Instr) (s : State) : Sends s (accept (loadOf i) s) [] [] where
  emits := emits_nothing (by simp [accept]) (by simp [accept])
  wire := by simp [accept]
  answers := by simp [accept]
  requests := by simp [accept]
  cfg := by simp [accept]
  draws := by simp [accept]

/-- In `n` steps the block sends these writes, reports OK and is idle. -/
def SucceedsIn (n : Nat) (s : State) (writes : List (List Byte)) : Prop :=
  ∃ t, run n s = .next t ∧ t.phase = .idle ∧ t.result = .ok ∧ Sends s t writes [.ok]

theorem SucceedsIn.of_step {n : Nat} {s u : State} {ws ws' : List (List Byte)} (hstep : step s = .next u)
    (hsends : Sends s u ws []) (h : SucceedsIn n u ws') : SucceedsIn (n + 1) s (ws ++ ws') := by
  obtain ⟨t, hrun, hidle, hok, hrest⟩ := h
  exact ⟨t, by rw [run_succ hstep, hrun], hidle, hok, hsends.trans hrest⟩

theorem succeedsIn_one {s u : State} {ws : List (List Byte)} (hstep : step s = .next (complete .ok u))
    (hsends : Sends s u ws []) : SucceedsIn 1 s ws :=
  ⟨_, run_one hstep, rfl, rfl, by simpa using hsends.trans (sends_complete u .ok)⟩

/-! The cursor as an index (10_state.md R26). -/

/-- Before the end the cursor is at an element of the buffer. -/
theorem cursorIndex_lt {s : State} (h : Inv s) (hstream : s.phase = .stream) : s.cursorIndex < s.h.toNat * s.w.toNat := by
  obtain ⟨-, hend⟩ := h.stream_open hstream
  obtain ⟨hrow, hcol, -⟩ := h.cursor (.inl hstream)
  have hbefore : s.row.toNat < s.h.toNat :=
    lt_of_le_of_ne hrow fun he => (State.atEnd_eq_false_iff s).1 hend (BitVec.eq_of_toNat_eq he)
  calc s.cursorIndex < s.row.toNat * s.w.toNat + s.w.toNat := Nat.add_lt_add_left hcol _
    _ = (s.row.toNat + 1) * s.w.toNat := (Nat.succ_mul _ _).symm
    _ ≤ s.h.toNat * s.w.toNat := Nat.mul_le_mul_right _ hbefore

/-- At the end every element is behind the cursor. -/
theorem cursorIndex_of_atEnd {s : State} (h : Inv s) (hblit : inBlit s) (hend : s.atEnd = true) :
    s.cursorIndex = s.h.toNat * s.w.toNat := by
  obtain ⟨-, -, hcol⟩ := h.cursor hblit
  have hrow := (State.atEnd_iff s).1 hend
  rw [State.cursorIndex, hcol hrow, hrow]
  rfl

/-- *pixel* moves the cursor to the next index. -/
theorem cursorIndex_appendWord {s : State} (h : Inv s) (hstream : s.phase = .stream) (v : PixelWord) :
    (appendWord v s).cursorIndex = s.cursorIndex + 1 := by
  obtain ⟨hrow, hcol, -⟩ := h.cursor (.inl hstream)
  obtain ⟨-, hend⟩ := h.stream_open hstream
  have hbefore : s.row.toNat ≠ s.h.toNat :=
    fun he => (State.atEnd_eq_false_iff s).1 hend (BitVec.eq_of_toNat_eq he)
  have hw := s.w.isLt
  have hh := s.h.isLt
  simp only [State.cursorIndex, appendWord_row, appendWord_col, appendWord_w, State.nextRow, State.nextCol]
  by_cases hlast : s.col.toNat + 1 < s.w.toNat
  · have hcol' : (s.col + 1).toNat = s.col.toNat + 1 := BitVec.toNat_add_of_lt (by simp; omega)
    rw [if_pos hlast, if_pos hlast, hcol', Nat.add_assoc]
  · have hrow' : (s.row + 1).toNat = s.row.toNat + 1 := BitVec.toNat_add_of_lt (by simp; omega)
    have hwidth : s.w.toNat = s.col.toNat + 1 := by omega
    rw [if_neg hlast, if_neg hlast, hrow', Nat.succ_mul, Nat.add_assoc, Nat.add_assoc, ← hwidth]
    rfl

/-! What a DisplayBitmap in progress has still to send: BUF, then the elements from the cursor on. -/

/-- The bytes still to be written: those in BUF and those of the elements not yet read. -/
def State.pendingBytes (pix : Nat → Pixel) (s : State) : List Byte :=
  s.buf ++ payloadFrom s.cfg.byteOrder pix s.cursorIndex (s.h.toNat * s.w.toNat)

/-- *pixel* only moves an element into BUF. -/
theorem pendingBytes_appendWord {s : State} (h : Inv s) (hstream : s.phase = .stream) (pix : Nat → Pixel) :
    (appendWord (pixelWord (pix s.cursorIndex)) s).pendingBytes pix = s.pendingBytes pix := by
  simp only [State.pendingBytes, cursorIndex_appendWord h hstream, appendWord_buf, appendWord_cfg, appendWord_h,
    appendWord_w]
  rw [payloadFrom_of_lt _ _ (cursorIndex_lt h hstream), List.append_assoc]

/-- In FLUSH the first chunk of the bytes still to be written is BUF, full or the last one (42_pixel_streamer.md R139,
R153). -/
theorem chunks_pendingBytes_of_flush {s : State} (h : Inv s) (hflush : s.phase = .flush) (pix : Nat → Pixel) :
    chunks (s.pendingBytes pix) s.cfg.chunkBytes
      = s.buf :: chunks (payloadFrom s.cfg.byteOrder pix s.cursorIndex (s.h.toNat * s.w.toNat)) s.cfg.chunkBytes := by
  obtain ⟨hpos, hready⟩ := h.flush_ready hflush
  rw [h.fill_eq] at hpos hready
  refine chunks_append (List.ne_nil_of_length_pos hpos) (Config.chunkBytes_pos h.cfg_wf) ?_
  obtain hfull | hend := hready
  · exact .inl hfull
  · refine .inr ⟨h.fill_eq ▸ h.fill_le, ?_⟩
    rw [cursorIndex_of_atEnd h (.inr (.inl hflush)) hend, payloadFrom_self]

/-- From STREAM or FLUSH the block sends what is pending in chunks and then settles: a step per element, a step per
chunk and the settle step (42_pixel_streamer.md R159). -/
theorem succeedsIn_stream {s : State} (pix : Nat → Pixel) (more : List Answer) (h : Inv s) (hr : s.rst = false)
    (hp : s.phase = .stream ∨ s.phase = .flush)
    (hlent : ∀ j < s.h.toNat * s.w.toNat, memRead s.pixels j = some (pix j))
    (ha : s.answers = List.replicate (chunks (s.pendingBytes pix) s.cfg.chunkBytes).length .ok ++ more) (n : Nat)
    (hn : n = s.h.toNat * s.w.toNat - s.cursorIndex + (chunks (s.pendingBytes pix) s.cfg.chunkBytes).length) :
    SucceedsIn (n + 1) s (chunks (s.pendingBytes pix) s.cfg.chunkBytes) := by
  induction n generalizing s with
  | zero =>
    obtain hstream | hflush := hp
    · have := cursorIndex_lt h hstream
      omega
    · rw [chunks_pendingBytes_of_flush h hflush, List.length_cons] at hn
      omega
  | succ n ih =>
    obtain hstream | hflush := hp
    · have hlt := cursorIndex_lt h hstream
      have hstep := step_of_stepTo h.cfg_wf (.pixel hr hstream (hlent _ hlt))
      have hpending := pendingBytes_appendWord h hstream pix
      have hindex := cursorIndex_appendWord h hstream (pixelWord (pix s.cursorIndex))
      have hrest := ih (h.appendWord hstream (pixelWord (pix s.cursorIndex))) (by simpa using hr)
        (by rw [appendWord_phase, hstream]; split_ifs <;> simp) (by simpa using hlent)
        (by simpa [hpending] using ha) (by simp only [hpending, hindex, appendWord_h, appendWord_w, appendWord_cfg]; omega)
      simpa [hpending] using SucceedsIn.of_step hstep (sends_appendWord s _) hrest
    · rw [chunks_pendingBytes_of_flush h hflush] at ha hn ⊢
      obtain ⟨later, hlater, hanswers⟩ : ∃ later, later = List.replicate _ .ok ++ more ∧ s.answers = .ok :: later :=
        ⟨_, rfl, ha⟩
      have hsends := sends_recordWrite hanswers s.buf
      cases hend : s.atEnd with
      | false =>
        have hstep := step_of_stepTo h.cfg_wf (.flushOkMore hr hflush hanswers hend)
        have hrest := ih ((h.recordWrite s.buf .ok).flushOkMore hflush hend) hr (.inl rfl) hlent
          ((congrArg List.tail hanswers).trans hlater) (Nat.succ.inj hn)
        exact .of_step hstep { hsends with } hrest
      | true =>
        have hstep := step_of_stepTo h.cfg_wf (.flushOkEnd hr hflush hanswers hend)
        have hsettle := step_of_stepTo (s := flushOkEnd (recordWrite s.buf .ok s)) h.cfg_wf (.settleDone hr rfl)
        rw [cursorIndex_of_atEnd h (.inr (.inl hflush)) hend, payloadFrom_self, chunks_nil (Config.chunkBytes_pos h.cfg_wf)]
          at hn ⊢
        obtain rfl : n = 0 := by simpa using hn
        exact .of_step hstep { hsends with } (succeedsIn_one hsettle (sends_refl _))

/-! A whole operation. -/

theorem chunks_payload_length (order : ByteOrder) (w h : Nat) (pix : Nat → Pixel) (c : Nat) :
    (chunks (payload order w h pix) c).length = chunkCount (2 * w * h) c := by
  rw [chunks_length, payload_eq_payloadFrom, payloadFrom_length, Nat.sub_zero, Nat.mul_assoc]

/-- Where the stream of a DisplayBitmap begins: accepted, and its frame answered `ok`. -/
def streamStart (x y w h : Int) (s : State) : State :=
  frameOkBlit (recordWrite (encode s.cfg.byteOrder (.displayBitmap x y w h)) .ok (accept (loadOf (.displayBitmap x y w h)) s))

section
variable {s : State} {x y w h : Int}

theorem step_streamStart {more : List Answer} (hwf : s.cfg.wf = true) (hr : s.rst = false)
    (ha : s.answers = .ok :: more) :
    step (accept (loadOf (.displayBitmap x y w h)) s) = .next (streamStart x y w h s) := by
  have hframe : (accept (loadOf (.displayBitmap x y w h)) s).frameBytes = encode s.cfg.byteOrder (.displayBitmap x y w h) :=
    loadOf_frameBytes rfl _ s
  rw [streamStart, ← hframe]
  exact step_of_stepTo hwf (.frameOkBlit hr rfl ha rfl)

theorem sends_streamStart {more : List Answer} (ha : s.answers = .ok :: more) :
    Sends (accept (loadOf (.displayBitmap x y w h)) s) (streamStart x y w h s)
      [encode s.cfg.byteOrder (.displayBitmap x y w h)] [] :=
  { sends_recordWrite (s := accept (loadOf (.displayBitmap x y w h)) s) ha _ with }

/-- Where the stream begins the invariants hold, whatever the block held before the request: the frame's answer `ok`
empties BUF (10_state.md R36, R37). -/
theorem inv_streamStart (hwf : s.cfg.wf = true) (hidle : s.phase = .idle)
    (hv : valid s.cfg (.displayBitmap x y w h) = true) : Inv (streamStart x y w h s) := by
  have hempty : Inv (emptyBuffer s) := inv_of_idle hwf hidle rfl rfl
  exact ((hempty.accept hidle hv).recordWrite _ .ok).frameOkBlit rfl rfl

/-- The size latched is the size asked for (10_state.md R25). -/
theorem streamStart_size (hwf : s.cfg.wf = true) (hv : valid s.cfg (.displayBitmap x y w h) = true) :
    (streamStart x y w h s).h.toNat * (streamStart x y w h s).w.toNat = w.toNat * h.toNat := by
  obtain ⟨-, -, hw, hh⟩ := Instr.displayBitmap.inj (loadOf_latched hwf hv)
  have ew : ((streamStart x y w h s).w.toNat : Int) = w := hw
  have eh : ((streamStart x y w h s).h.toNat : Int) = h := hh
  rw [Nat.mul_comm, ← Int.toNat_natCast (streamStart x y w h s).w.toNat, ← Int.toNat_natCast (streamStart x y w h s).h.toNat,
    ew, eh]

@[simp] theorem streamStart_cursorIndex : (streamStart x y w h s).cursorIndex = 0 := by
  simp [State.cursorIndex, streamStart, frameOkBlit]

/-- Where the stream begins the whole payload is pending. -/
theorem streamStart_pendingBytes (hwf : s.cfg.wf = true) (hv : valid s.cfg (.displayBitmap x y w h) = true)
    (pix : Nat → Pixel) :
    (streamStart x y w h s).pendingBytes pix = payload s.cfg.byteOrder w.toNat h.toNat pix := by
  rw [State.pendingBytes, streamStart_size hwf hv, streamStart_cursorIndex, payload_eq_payloadFrom]
  rfl

/-- A valid DisplayBitmap, from acceptance on: its frame, then the chunks of its payload. -/
theorem succeedsIn_blit (pix : Nat → Pixel) {more : List Answer} (hwf : s.cfg.wf = true) (hr : s.rst = false)
    (hidle : s.phase = .idle) (hv : valid s.cfg (.displayBitmap x y w h) = true)
    (hlent : ∀ j < w.toNat * h.toNat, memRead s.pixels j = some (pix j))
    (ha : s.answers = List.replicate (operationWrites s.cfg (.displayBitmap x y w h) pix).length .ok ++ more) :
    SucceedsIn (w.toNat * h.toNat + chunkCount (2 * w.toNat * h.toNat) s.cfg.chunkBytes + 1 + 1)
      (accept (loadOf (.displayBitmap x y w h)) s) (operationWrites s.cfg (.displayBitmap x y w h) pix) := by
  obtain ⟨later, hlater, hanswers⟩ : ∃ later, later = List.replicate _ .ok ++ more ∧ s.answers = .ok :: later :=
    ⟨_, rfl, ha⟩
  have hcfg : (streamStart x y w h s).cfg = s.cfg := rfl
  have hchunks := streamStart_pendingBytes hwf hv pix
  have hsize := streamStart_size hwf hv
  have hrest : SucceedsIn _ (streamStart x y w h s) _ :=
    succeedsIn_stream pix more (inv_streamStart hwf hidle hv) hr (.inl rfl) (by rw [hsize]; exact hlent)
      (by rw [hchunks]; exact (congrArg List.tail hanswers).trans hlater) _ rfl
  rw [hchunks, hsize, streamStart_cursorIndex, hcfg, Nat.sub_zero, chunks_payload_length] at hrest
  exact .of_step (step_streamStart hwf hr hanswers) (sends_streamStart hanswers) hrest

end

/-- A valid operation of one frame, from acceptance on. -/
theorem succeedsIn_control {s : State} {i : Instr} {more : List Answer} (hwf : s.cfg.wf = true) (hr : s.rst = false)
    (hi : slotOf i = .command) (hcmd : (loadOf i s).cmd ≠ .displayBitmap) (ha : s.answers = .ok :: more) :
    SucceedsIn 1 (accept (loadOf i) s) [encode s.cfg.byteOrder i] := by
  have hanswers : (accept (loadOf i) s).answers = .ok :: more := by simpa [accept] using ha
  have hstep := step_of_stepTo (s := accept (loadOf i) s) (by simpa [accept] using hwf)
    (.frameOkControl (by simpa [accept] using hr) rfl hanswers hcmd)
  have hframe : (accept (loadOf i) s).frameBytes = encode s.cfg.byteOrder i := loadOf_frameBytes hi _ s
  rw [hframe] at hstep
  exact succeedsIn_one hstep (sends_recordWrite hanswers _)

/-- From acceptance on a valid operation takes the transitions of 42_pixel_streamer.md R159 and issues the writes of R154. -/
theorem succeedsIn_accepted {s : State} {i : Instr} (pix : Nat → Pixel) {more : List Answer} (hwf : s.cfg.wf = true)
    (hr : s.rst = false) (hidle : s.phase = .idle) (hv : valid s.cfg i = true)
    (hlent : ∀ j < payloadWords i, memRead s.pixels j = some (pix j))
    (ha : s.answers = List.replicate (operationWrites s.cfg i pix).length .ok ++ more) :
    ∃ n, operationSteps s.cfg i = n + 1 ∧ SucceedsIn n (accept (loadOf i) s) (operationWrites s.cfg i pix) := by
  cases i with
  | displayBitmap x y w h =>
    exact ⟨_, by rw [operationSteps]; omega, succeedsIn_blit pix hwf hr hidle hv hlent ha⟩
  | pixel16 r g b => cases hv
  | _ => exact ⟨1, rfl, succeedsIn_control hwf hr rfl (by simp [loadOf]) ha⟩

/-- A valid request of an idle block runs to its result when every write is answered `ok` (42_pixel_streamer.md R154,
R159). -/
theorem run_operation {s : State} {p : Presented} {rest : List Presented} {i : Instr} {pix : Nat → Pixel}
    {more : List Answer} (hwf : s.cfg.wf = true) (hr : s.rst = false) (hidle : s.phase = .idle)
    (hq : s.requests = p :: rest) (hd : decodeRequest s.cfg p.request = some i) (hv : valid s.cfg i = true)
    (hlent : ∀ j < payloadWords i, memRead p.pixels j = some (pix j))
    (ha : s.answers = List.replicate (operationWrites s.cfg i pix).length .ok ++ more) :
    ∃ t, run (operationSteps s.cfg i) s = .next t ∧ t.phase = .idle ∧ t.result = .ok
      ∧ Sends (present p rest s) t (operationWrites s.cfg i pix) [.ok] := by
  obtain ⟨n, hn, t, hrun, hphase, hresult, hsends⟩ :=
    succeedsIn_accepted (s := present p rest s) pix hwf hr hidle hv hlent ha
  have hn : operationSteps s.cfg i = n + 1 := hn
  refine ⟨t, ?_, hphase, hresult, (sends_accept i _).trans hsends⟩
  rw [hn, run_succ (step_of_stepTo hwf (.accept hr hidle hq hd hv)), hrun]

/-! The chunk size. -/

/-- Every write is a transition of its own (42_pixel_streamer.md R154, R159). -/
theorem operationWrites_length_le (c : Config) (i : Instr) (pix : Nat → Pixel) :
    (operationWrites c i pix).length ≤ operationSteps c i := by
  cases i with
  | displayBitmap x y w h =>
    rw [operationWrites, operationSteps, List.length_cons, chunks_payload_length]
    omega
  | _ => simp [operationWrites, operationSteps]

/-- A valid request of an idle block with answers enough puts the frame and the payload on the wire; how they are cut into
writes does not show (30_encoding.md R92). -/
theorem run_operation_wire {s : State} {p : Presented} {rest : List Presented} {i : Instr} {pix : Nat → Pixel} {n : Nat}
    (hwf : s.cfg.wf = true) (hr : s.rst = false) (hidle : s.phase = .idle) (hq : s.requests = p :: rest)
    (hd : decodeRequest s.cfg p.request = some i) (hv : valid s.cfg i = true)
    (hlent : ∀ j < payloadWords i, memRead p.pixels j = some (pix j)) (ha : s.answers = List.replicate n .ok)
    (hn : operationSteps s.cfg i ≤ n) :
    ∃ t, run (operationSteps s.cfg i) s = .next t ∧ t.phase = .idle ∧ t.result = .ok
      ∧ t.wire = s.wire ++ (encode s.cfg.byteOrder i ++ payloadOf s.cfg.byteOrder i pix) := by
  obtain ⟨k, rfl⟩ := Nat.exists_eq_add_of_le ((operationWrites_length_le s.cfg i pix).trans hn)
  rw [← List.replicate_append_replicate] at ha
  obtain ⟨t, hrun, hphase, hresult, hsends⟩ := run_operation hwf hr hidle hq hd hv hlent ha
  exact ⟨t, hrun, hphase, hresult, by rw [hsends.wire, operationWrites_flatten pix hwf hv]; rfl⟩

/-- CHUNK_MULT has no part in which operations are valid (43_display_commands.md R166). -/
theorem valid_chunkMult (c : Config) (m : Nat) (i : Instr) : valid { c with chunkMult := m } i = valid c i := by
  cases i <;> rfl

/-- Settles O50: with either CHUNK_MULT the wire gets the frame and the payload. -/
theorem chunkSizeIsInvisibleOnTheWire : Obligations.ChunkSizeIsInvisibleOnTheWire := by
  intro s m p rest i pix n hwf hwf' hr hidle hq hd hv hlent ha hn hn'
  have hv' := (valid_chunkMult s.cfg m i).trans hv
  obtain ⟨t, hrun, hphase, hresult, hwire⟩ := run_operation_wire hwf hr hidle hq hd hv hlent ha hn
  obtain ⟨t', hrun', hphase', hresult', hwire'⟩ :=
    run_operation_wire (s := { s with cfg := { s.cfg with chunkMult := m } }) hwf' hr hidle hq hd hv' hlent ha hn'
  exact ⟨t, t', hrun, hrun', hphase, hphase', hresult, hresult', hwire.trans hwire'.symm⟩

end Sys2Proof.Machine
end

section
/-! SUPPORT. The ColorConverter: `toRGB565` as the word of three lanes, the pixels that convert to one word, and the two
bytes of a word (40_color_converter.md R111, R112, R114). -/

namespace Sys2Proof.Machine

/-! A word and its three lanes, as bits and as numbers. -/

/-- Each lane of the word of three lanes. -/
theorem wordOfLanes_lanes (r : BitVec 5) (g : BitVec 6) (b : BitVec 5) :
    (wordOfLanes r g b).extractLsb' 11 5 = r ∧ (wordOfLanes r g b).extractLsb' 5 6 = g
    ∧ (wordOfLanes r g b).extractLsb' 0 5 = b :=
  Instr.pixel16.inj (instrOfWord_wordOfLanes r g b)

/-- Two words joined, as a number. -/
theorem toNat_append_eq_add {m n : Nat} (x : BitVec m) (y : BitVec n) : (x ++ y).toNat = x.toNat * 2 ^ n + y.toNat := by
  rw [BitVec.toNat_append, ← Nat.shiftLeft_add_eq_or_of_lt y.isLt, Nat.shiftLeft_eq]

theorem wordOfLanes_toNat (r : BitVec 5) (g : BitVec 6) (b : BitVec 5) :
    (wordOfLanes r g b).toNat = r.toNat * 2048 + g.toNat * 32 + b.toNat := by
  rw [wordOfLanes, toNat_append_eq_add, toNat_append_eq_add]
  omega

/-! The converter: each channel's high bits in its own lane. -/

/-- A byte's bits from the `k`-th up, as a number. -/
theorem toNat_highBits {k n : Nat} (hkn : k + n = 8) (x : Byte) : (x.extractLsb' k n).toNat = x.toNat / 2 ^ k := by
  have hlt : x.toNat / 2 ^ k < 2 ^ n := Nat.div_lt_of_lt_mul (by rw [← Nat.pow_add, hkn]; exact x.isLt)
  rw [BitVec.extractLsb'_toNat, Nat.shiftRight_eq_div_pow, Nat.mod_eq_of_lt hlt]

theorem highBits_mono {k n : Nat} (hkn : k + n = 8) {x y : Byte} (h : x ≤ y) : x.extractLsb' k n ≤ y.extractLsb' k n := by
  rw [BitVec.le_def, toNat_highBits hkn, toNat_highBits hkn]
  exact Nat.div_le_div_right (BitVec.le_def.1 h)

/-- A channel shifted right in a 16-bit word, as a number. -/
theorem toNat_channel_shiftRight (x : Byte) (k : Nat) : (x.setWidth 16 >>> k).toNat = x.toNat / 2 ^ k := by
  rw [BitVec.toNat_ushiftRight, BitVec.toNat_setWidth_of_le (by omega), Nat.shiftRight_eq_div_pow]

/-- A shifted field and a disjoint one, at any width: `|` is `+`. -/
theorem toNat_shiftLeft_or_of_lt {w k : Nat} (hi lo : BitVec w) (hh : hi.toNat * 2 ^ k < 2 ^ w)
    (hl : lo.toNat < 2 ^ k) : (hi <<< k ||| lo).toNat = hi.toNat * 2 ^ k + lo.toNat := by
  rw [BitVec.toNat_or, BitVec.toNat_shiftLeft, Nat.shiftLeft_eq, Nat.mod_eq_of_lt hh, Nat.mul_comm,
    ← Nat.two_pow_add_eq_or_of_lt hl]

/-- The `|` of the converter may be `+` (40_color_converter.md R111). -/
theorem toRGB565_toNat (r g b : Byte) :
    (toRGB565 r g b).toNat = r.toNat / 8 * 2048 + g.toNat / 4 * 32 + b.toNat / 8 := by
  have := r.isLt; have := g.isLt; have := b.isLt
  have er : (r.setWidth 16 >>> 3).toNat = r.toNat / 8 := toNat_channel_shiftRight r 3
  have eg : (g.setWidth 16 >>> 2).toNat = g.toNat / 4 := toNat_channel_shiftRight g 2
  have eb : (b.setWidth 16 >>> 3).toNat = b.toNat / 8 := toNat_channel_shiftRight b 3
  have egb := toNat_shiftLeft_or_of_lt (k := 5) (g.setWidth 16 >>> 2) (b.setWidth 16 >>> 3) (by omega) (by omega)
  rw [toRGB565, BitVec.or_assoc, toNat_shiftLeft_or_of_lt _ _ (by omega) (by omega), egb, er, eg, eb]
  omega

/-- The converter keeps each channel's high bits and places them in its lane (40_color_converter.md R111). -/
theorem toRGB565_eq_wordOfLanes (r g b : Byte) :
    toRGB565 r g b = wordOfLanes (r.extractLsb' 3 5) (g.extractLsb' 2 6) (b.extractLsb' 3 5) := by
  apply BitVec.eq_of_toNat_eq
  rw [toRGB565_toNat, wordOfLanes_toNat, toNat_highBits rfl, toNat_highBits rfl, toNat_highBits rfl]
  rfl

/-- The three lanes of the converted word (40_color_converter.md R111). -/
theorem toRGB565_lanes (r g b : Byte) :
    (toRGB565 r g b).extractLsb' 11 5 = r.extractLsb' 3 5 ∧ (toRGB565 r g b).extractLsb' 5 6 = g.extractLsb' 2 6
    ∧ (toRGB565 r g b).extractLsb' 0 5 = b.extractLsb' 3 5 := by
  rw [toRGB565_eq_wordOfLanes]
  exact wordOfLanes_lanes ..

/-- Settles O8: the converted word is the word of the three truncated channels. -/
theorem converterWorksLaneByLane : Obligations.ConverterWorksLaneByLane := by
  intro r g b
  obtain ⟨hr, hg, hb⟩ := toRGB565_lanes r g b
  exact ⟨hr, hg, hb, toRGB565_eq_wordOfLanes r g b, toRGB565_toNat r g b⟩

/-! The pixels that convert to one word: the bits that truncation drops are free. -/

/-- The low bits of the three channels, which truncation drops (40_color_converter.md R112). -/
abbrev DroppedBits := BitVec 3 × BitVec 2 × BitVec 3

/-- The pixel with the lanes of `v` in the high bits of its channels and `d` in their low bits. -/
def pixelWithDropped (v : PixelWord) (d : DroppedBits) : Pixel :=
  { r := v.extractLsb' 11 5 ++ d.1, g := v.extractLsb' 5 6 ++ d.2.1, b := v.extractLsb' 0 5 ++ d.2.2 }

theorem pixelWord_pixelWithDropped (v : PixelWord) (d : DroppedBits) : pixelWord (pixelWithDropped v d) = v := by
  rw [pixelWord, toRGB565_eq_wordOfLanes, pixelWithDropped, BitVec.extractLsb'_append_eq_left,
    BitVec.extractLsb'_append_eq_left, BitVec.extractLsb'_append_eq_left, wordOfLanes_extract]

theorem join_highBits_lowBits {k n : Nat} (x : BitVec (n + k)) : x.extractLsb' k n ++ x.extractLsb' 0 k = x := by
  rw [BitVec.extractLsb'_append_extractLsb'_eq_extractLsb' (Nat.zero_add k).symm, BitVec.extractLsb'_eq_self]

theorem pixelWithDropped_pixelWord (p : Pixel) :
    pixelWithDropped (pixelWord p) (p.r.extractLsb' 0 3, p.g.extractLsb' 0 2, p.b.extractLsb' 0 3) = p := by
  obtain ⟨hr, hg, hb⟩ := toRGB565_lanes p.r p.g p.b
  rw [pixelWithDropped, pixelWord, hr, hg, hb, join_highBits_lowBits, join_highBits_lowBits, join_highBits_lowBits]

theorem pixelWithDropped_injective (v : PixelWord) : Function.Injective (pixelWithDropped v) := by
  intro d d' h
  obtain ⟨hr, hg, hb⟩ := Pixel.mk.inj h
  exact Prod.ext ((BitVec.append_right_inj _).1 hr)
    (Prod.ext ((BitVec.append_right_inj _).1 hg) ((BitVec.append_right_inj _).1 hb))

theorem pixelWord_eq_iff {p : Pixel} {v : PixelWord} : pixelWord p = v ↔ ∃ d, pixelWithDropped v d = p := by
  constructor
  · rintro rfl
    exact ⟨_, pixelWithDropped_pixelWord p⟩
  · rintro ⟨d, rfl⟩
    exact pixelWord_pixelWithDropped v d

theorem length_droppedBits : (FinEnum.toList DroppedBits).length = 256 := by
  have hcard : FinEnum.card DroppedBits = 256 := by
    rw [FinEnum.card_eq_fintypeCard, Fintype.card_prod, Fintype.card_prod, ← FinEnum.card_eq_fintypeCard,
      ← FinEnum.card_eq_fintypeCard, FinEnum.card_bitVec, FinEnum.card_bitVec]
    rfl
  rw [FinEnum.toList, List.length_map, List.length_finRange, hcard]

/-- Settles O9: a lane keeps its channel's high bits, and the 8 bits dropped are free. -/
theorem converterTruncates : Obligations.ConverterTruncates := by
  refine ⟨fun r r' g g' b b' => ?_, fun v => ?_⟩
  · obtain ⟨hr, hg, hb⟩ := toRGB565_lanes r g b
    obtain ⟨hr', hg', hb'⟩ := toRGB565_lanes r' g' b'
    rw [hr, hg, hb, hr', hg', hb']
    exact ⟨highBits_mono rfl, highBits_mono rfl, highBits_mono rfl⟩
  · refine ⟨(FinEnum.toList DroppedBits).map (pixelWithDropped v),
      FinEnum.nodup_toList.map (pixelWithDropped_injective v), ?_, fun p => ?_⟩
    · rw [List.length_map, length_droppedBits]
    · simp only [List.mem_map, FinEnum.mem_toList, true_and, pixelWord_eq_iff]

/-- Settles O10: the two orders swap the bytes. -/
theorem wordBytesFollowTheOrder : Obligations.WordBytesFollowTheOrder := by
  intro v
  refine ⟨rfl, rfl, fun heq => ?_, fun _ _ _ => wordBytes_eq_iff⟩
  rw [wordBytes, wordBytes, heq]

end Sys2Proof.Machine
end

section
/-! SUPPORT. The FrameEncoder: a frame as one 48-bit number and its bytes (41_frame_encoder.md R123), frames and operands
one to one (R126), and the bare encoder on and off its domain (R121). -/

namespace Sys2Proof.Machine

/-! The number of a frame: its fields shifted into place, and its bytes. -/

/-- The number of a frame, as the closed form writes it (41_frame_encoder.md R123). -/
theorem frameNumber_toNat_eq_or (cmd : Byte) (x y ex ey : Coord) : (frameNumber cmd x y ex ey).toNat =
    x.toNat <<< 38 ||| y.toNat <<< 28 ||| ex.toNat <<< 18 ||| ey.toNat <<< 8 ||| cmd.toNat := by
  simp only [frameNumber, BitVec.toNat_append, Nat.shiftLeft_or_distrib, ← Nat.shiftLeft_add]

/-- No two fields overlap, so `|` is `+` (41_frame_encoder.md R122). -/
theorem frameNumber_toNat_eq_add (cmd : Byte) (x y ex ey : Coord) : (frameNumber cmd x y ex ey).toNat =
    x.toNat * 2 ^ 38 + y.toNat * 2 ^ 28 + ex.toNat * 2 ^ 18 + ey.toNat * 2 ^ 8 + cmd.toNat := by
  simp only [frameNumber, toNat_append_eq_add]
  omega

/-- The six bytes of a 48-bit number as numbers. -/
theorem bytesOfNumber_toNat (f : BitVec 48) : (bytesOfNumber f).map BitVec.toNat =
    [f.toNat / 2 ^ 40 % 256, f.toNat / 2 ^ 32 % 256, f.toNat / 2 ^ 24 % 256, f.toNat / 2 ^ 16 % 256,
      f.toNat / 2 ^ 8 % 256, f.toNat % 256] := by
  simp [bytesOfNumber, BitVec.extractLsb'_toNat, Nat.shiftRight_eq_div_pow]

/-- Byte `k` of a 48-bit number, most significant first, is its bits 47−8k down to 40−8k (41_frame_encoder.md R123). -/
theorem getElem?_bytesOfNumber (f : BitVec 48) {k : Nat} (hk : k < 6) :
    (bytesOfNumber f)[k]? = some (f.extractLsb' (40 - 8 * k) 8) := by
  interval_cases k <;> rfl

/-- The packing formula writes the bytes of the frame's number (41_frame_encoder.md R123). -/
theorem encodeFrame_eq_bytesOfNumber (cmd : Byte) (x y ex ey : Coord) :
    encodeFrame cmd x y ex ey = bytesOfNumber (frameNumber cmd x y ex ey) := by
  have := cmd.isLt; have := x.isLt; have := y.isLt; have := ex.isLt; have := ey.isLt
  apply List.map_injective_iff.2 BitVec.toNat_injective
  rw [encodeFrame_toNat, bytesOfNumber_toNat, frameNumber_toNat_eq_add]
  simp only [List.cons.injEq, and_true]
  refine ⟨?_, ?_, ?_, ?_, ?_, ?_⟩ <;> omega

/-- Settles O3: the frame is the bytes of its number. -/
theorem frameIsBigEndianNumber : Obligations.FrameIsBigEndianNumber := by
  intro cmd x y ex ey
  refine ⟨frameNumber_toNat_eq_or cmd x y ex ey, encodeFrame_length .., fun k hk => ?_⟩
  rw [encodeFrame_eq_bytesOfNumber, getElem?_bytesOfNumber _ hk]

/-! Frames and operands. -/

/-- The operands of a frame are the fields extracted from it, so no two tuples share a frame (41_frame_encoder.md R126). -/
theorem encodeFrame_injective {c c' : Byte} {x y ex ey x' y' ex' ey' : Coord}
    (h : encodeFrame c x y ex ey = encodeFrame c' x' y' ex' ey') : c = c' ∧ x = x' ∧ y = y' ∧ ex = ex' ∧ ey = ey' := by
  obtain ⟨b0, b1, b2, b3, b4, b5, hbytes⟩ : ∃ b0 b1 b2 b3 b4 b5, encodeFrame c' x' y' ex' ey' = [b0, b1, b2, b3, b4, b5] :=
    ⟨_, _, _, _, _, _, rfl⟩
  obtain ⟨rfl, rfl, rfl, rfl, rfl⟩ := encodeFrame_eq_iff.1 hbytes
  exact encodeFrame_eq_iff.1 (h.trans hbytes)

/-- Settles O4: both directions of `encodeFrame_eq_iff`. -/
theorem framesAndOperandsCorrespond : Obligations.FramesAndOperandsCorrespond :=
  ⟨fun _ _ _ _ _ _ _ _ _ _ => encodeFrame_injective,
    fun _ _ _ _ _ _ => encodeFrame_eq_iff.2 ⟨rfl, rfl, rfl, rfl, rfl⟩⟩

/-! The bare encoder and its domain. -/

theorem toNat_ofNat_of_lt {n v : Nat} (h : v < 2 ^ n) : (BitVec.ofNat n v).toNat = v := by
  rw [BitVec.toNat_ofNat, Nat.mod_eq_of_lt h]

section
variable {cmd x y ex ey : Nat} (hcmd : cmd ≤ 255) (hx : x ≤ 1023) (hy : y ≤ 1023) (hex : ex ≤ 1023) (hey : ey ≤ 1023)
include hcmd hx hy hex hey

/-- On the domain no value of the packing formula overflows a byte (41_frame_encoder.md R121, R122). -/
theorem frameFormula_le : ∀ v ∈ frameFormula cmd x y ex ey, v ≤ 255 := by
  rw [frameFormula_eq]
  simp only [List.forall_mem_cons]
  refine ⟨?_, ?_, ?_, ?_, ?_, hcmd, List.forall_mem_nil _⟩ <;> omega

/-- On the domain the fields of the frame hold the operands untruncated. -/
theorem encodeFrame_ofNat :
    encodeFrame (BitVec.ofNat 8 cmd) (BitVec.ofNat 10 x) (BitVec.ofNat 10 y) (BitVec.ofNat 10 ex) (BitVec.ofNat 10 ey)
      = (frameFormula cmd x y ex ey).map (BitVec.ofNat 8) := by
  rw [encodeFrame, toNat_ofNat_of_lt (by omega), toNat_ofNat_of_lt (by omega), toNat_ofNat_of_lt (by omega),
    toNat_ofNat_of_lt (by omega), toNat_ofNat_of_lt (by omega)]

end

/-- Settles O5: the domain check is the encoder's only condition, and inside it nothing is truncated. -/
theorem encoderDomainIsExact : Obligations.EncoderDomainIsExact := by
  intro cmd x y ex ey
  refine ⟨fun hdom => ?_, fun hdom => if_neg hdom⟩
  obtain ⟨hcmd, hx, hy, hex, hey⟩ := hdom
  refine ⟨frameFormula_le hcmd hx hy hex hey, ?_⟩
  rw [encodeFrame_ofNat hcmd hx hy hex hey]
  exact if_pos ⟨hcmd, hx, hy, hex, hey⟩

end Sys2Proof.Machine
end

section
/-! SUPPORT. The stream so far is the picture so far (42_pixel_streamer.md R138, R139): the transitions that put the block
into STREAM or FLUSH, or leave it there; all others end in a phase of which `StreamFaithful` says nothing. -/

namespace Sys2Proof.Machine

@[simp] theorem payloadPrefix_zero (order : ByteOrder) (pix : Nat → Pixel) : payloadPrefix order 0 pix = [] := rfl

/-- One element more is its two bytes more. -/
theorem payloadPrefix_succ (order : ByteOrder) (n : Nat) (pix : Nat → Pixel) :
    payloadPrefix order (n + 1) pix = payloadPrefix order n pix ++ wordBytes order (pixelWord (pix n)) := by
  simp [payloadPrefix, List.range_succ]

/-- Only the elements counted matter. -/
theorem payloadPrefix_congr (order : ByteOrder) {n : Nat} {pix pix' : Nat → Pixel} (h : ∀ i < n, pix i = pix' i) :
    payloadPrefix order n pix = payloadPrefix order n pix' := by
  refine List.flatMap_congr fun i hi => ?_
  rw [h i (List.mem_range.1 hi)]

@[simp] theorem appendWord_frameBytes (v : PixelWord) (s : State) : (appendWord v s).frameBytes = s.frameBytes := by
  simp [State.frameBytes]

end Sys2Proof.Machine

namespace Sys2Proof.Safety

open Machine

/-- Outside STREAM and FLUSH nothing is claimed. -/
theorem streamFaithful_of_phase {s : State} (hstream : s.phase ≠ .stream) (hflush : s.phase ≠ .flush) :
    StreamFaithful s :=
  fun hp => absurd hp (not_or.2 ⟨hstream, hflush⟩)

/-- The stream begins with the frame as the last write and no element before the cursor (42_pixel_streamer.md R144). -/
theorem streamFaithful_frameOkBlit (s : State) : StreamFaithful (frameOkBlit (recordWrite s.frameBytes .ok s)) := by
  have hindex : (frameOkBlit (recordWrite s.frameBytes .ok s)).cursorIndex = 0 := by
    simp [State.cursorIndex, frameOkBlit]
  refine fun _ => ⟨s.hist, [], fun _ => ⟨0, 0, 0⟩, rfl, fun v hv => absurd hv List.not_mem_nil, ?_, ?_⟩
  · rw [hindex]
    exact fun i hi => absurd hi (Nat.not_lt_zero i)
  · rw [hindex, payloadPrefix_zero]
    rfl

/-- *pixel* moves the element under the cursor, converted, into BUF and the cursor behind it (42_pixel_streamer.md
R138, R146). -/
theorem StreamFaithful.appendWord {s : State} (h : StreamFaithful s) (hinv : Inv s) (hstream : s.phase = .stream)
    {p : Pixel} (hp : memRead s.pixels s.cursorIndex = some p) : StreamFaithful (appendWord (pixelWord p) s) := by
  obtain ⟨before, written, pix, hhist, hchunks, hread, hbytes⟩ := h (.inl hstream)
  have hagree : ∀ i < s.cursorIndex, Function.update pix s.cursorIndex p i = pix i :=
    fun i hi => Function.update_of_ne hi.ne p pix
  refine fun _ => ⟨before, written, Function.update pix s.cursorIndex p, ?_, ?_, fun i hi => ?_, ?_⟩
  · simpa using hhist
  · simpa using hchunks
  · rw [cursorIndex_appendWord hinv hstream] at hi
    rw [appendWord_pixels]
    obtain hlt | rfl := Nat.lt_succ_iff_lt_or_eq.1 hi
    · rw [hread i hlt, hagree i hlt]
    · rw [hp, Function.update_self]
  · rw [cursorIndex_appendWord hinv hstream, appendWord_buf, appendWord_cfg, payloadPrefix_succ, Function.update_self,
      payloadPrefix_congr _ hagree, ← List.append_assoc, hbytes]

/-- A chunk written while the cursor is not at the end is a full one, and only moves from BUF to HIST
(42_pixel_streamer.md R139, R147). -/
theorem StreamFaithful.flushOkMore {s : State} (h : StreamFaithful s) (hinv : Inv s) (hflush : s.phase = .flush)
    (hend : s.atEnd = false) : StreamFaithful (flushOkMore (recordWrite s.buf .ok s)) := by
  obtain ⟨before, written, pix, hhist, hchunks, hread, hbytes⟩ := h (.inr hflush)
  have hfull : s.buf.length = s.cfg.chunkBytes := by
    obtain ⟨-, hready⟩ := hinv.flush_ready hflush
    rw [← hinv.fill_eq]
    exact hready.resolve_right (by simp [hend])
  refine fun _ => ⟨before, written ++ [⟨s.buf, .ok⟩], pix, ?_, ?_, hread, ?_⟩
  · show s.hist ++ [⟨s.buf, .ok⟩] = before ++ ⟨s.frameBytes, .ok⟩ :: (written ++ [⟨s.buf, .ok⟩])
    rw [hhist, List.append_assoc, List.cons_append]
  · exact List.forall_mem_append.2 ⟨hchunks, List.forall_mem_singleton.2 ⟨rfl, hfull⟩⟩
  · calc (written ++ [(⟨s.buf, .ok⟩ : Write)]).flatMap (·.bytes) ++ []
        = written.flatMap (·.bytes) ++ s.buf := by simp
      _ = payloadPrefix s.cfg.byteOrder s.cursorIndex pix := hbytes

/-- Settles O33: the stream begins faithful, *pixel* and *flush-ok-more* keep it so, and every other transition waits or
leaves the stream. -/
theorem stepKeepsStreamFaithful : Obligations.StepKeepsStreamFaithful := by
  intro s t hinv h hstep
  obtain ⟨-, hcase⟩ := step_cases hstep
  cases hcase with
  | rest | frameWait | flushWait => exact h
  | frameOkBlit => exact streamFaithful_frameOkBlit s
  | pixel _ hp hm => exact h.appendWord hinv hp hm
  | flushOkMore _ hp _ he => exact h.flushOkMore hinv hp he
  | _ => exact streamFaithful_of_phase nofun nofun

end Sys2Proof.Safety
end

section
/-! SUPPORT. The transitions of a DisplayBitmap in progress as whole next states (42_pixel_streamer.md R144 to R150), and
what a busy block does not take (R142, R159). -/

namespace Sys2Proof.Machine

open Safety

/-- In a busy block the DisplayBitmap that the latches hold takes the block's own transition. -/
theorem exec_latched_displayBitmap {s : State} (hwf : s.cfg.wf = true) (hbusy : s.phase ≠ .idle)
    (hc : s.cmd = .displayBitmap) :
    exec (.displayBitmap s.fx.toNat s.fy.toNat s.w.toNat s.h.toNat) s = advance s := by
  have hlatched : s.latched = .displayBitmap s.fx.toNat s.fy.toNat s.w.toNat s.h.toNat := by
    rw [State.latched, hc]
  rw [← hlatched, exec_latched s hwf hbusy]

/-- So the step and the latched DisplayBitmap do the same in a busy block. -/
theorem step_and_exec_of_advance {s : State} {o : Host.Outcome State Fault Refusal} (hwf : s.cfg.wf = true)
    (hbusy : s.phase ≠ .idle) (h : advance s = o) :
    (s.rst = false → step s = o)
    ∧ (s.cmd = .displayBitmap → exec (.displayBitmap s.fx.toNat s.fy.toNat s.w.toNat s.h.toNat) s = o) :=
  ⟨fun hr => (step_busy s hwf hr hbusy).trans h, fun hc => (exec_latched_displayBitmap hwf hbusy hc).trans h⟩

/-! `advance`, phase by phase. -/

theorem advance_frame {s : State} (hp : s.phase = .frame) : advance s = .next (frameTransition s) := by
  rw [advance, hp]

theorem advance_stream_some {s : State} {p : Pixel} (hp : s.phase = .stream)
    (hm : memRead s.pixels s.cursorIndex = some p) : advance s = .next (appendWord (pixelWord p) s) := by
  simp [advance, hp, hm]

theorem advance_stream_none {s : State} (hp : s.phase = .stream) (hm : memRead s.pixels s.cursorIndex = none) :
    advance s = .fault .pixelNotSupplied := by
  simp [advance, hp, hm]

theorem advance_flush {s : State} (hp : s.phase = .flush) : advance s = .next (flushTransition s) := by
  rw [advance, hp]

theorem advance_settle {s : State} (hp : s.phase = .settle) : advance s = .next (settleDone s) := by
  rw [advance, hp]

/-! A write with its answer, seen from outside (10_state.md R31, R32). -/

section
variable {s : State} {more : List Answer}

theorem recordWrite_ok (ha : s.answers = .ok :: more) (b : List Byte) : recordWrite b .ok s = sentOk b more s := by
  rw [recordWrite, sentOk, ha]
  rfl

theorem raiseIoError_recordWrite (ha : s.answers = .fail :: more) (b : List Byte) :
    raiseIoError (recordWrite b .fail s) = sentFail b more s := by
  rw [recordWrite, ha]
  rfl

/-- The frame of a DisplayBitmap, answered `ok` (42_pixel_streamer.md R144). -/
theorem frameTransition_ok_blit (ha : s.answers = .ok :: more) (hc : s.cmd = .displayBitmap) :
    frameTransition s = frameOkBlit (sentOk s.frameBytes more s) := by
  rw [frameTransition, txWrite, ha, if_pos hc, recordWrite_ok ha]

/-- The frame, answered `fail` (42_pixel_streamer.md R145). -/
theorem frameTransition_fail (ha : s.answers = .fail :: more) : frameTransition s = sentFail s.frameBytes more s := by
  rw [frameTransition, txWrite, ha, ← raiseIoError_recordWrite ha]
  rfl

/-- A chunk, answered `ok` before the end (42_pixel_streamer.md R147). -/
theorem flushTransition_ok_more (ha : s.answers = .ok :: more) (hend : s.row ≠ s.h) :
    flushTransition s = flushOkMore (sentOk s.buf more s) := by
  rw [flushTransition, txWrite, ha, (State.atEnd_eq_false_iff s).2 hend, recordWrite_ok ha]
  rfl

/-- The last chunk, answered `ok` (42_pixel_streamer.md R148). -/
theorem flushTransition_ok_end (ha : s.answers = .ok :: more) (hend : s.row = s.h) :
    flushTransition s = flushOkEnd (sentOk s.buf more s) := by
  rw [flushTransition, txWrite, ha, (State.atEnd_iff s).2 hend, recordWrite_ok ha]
  rfl

/-- A chunk, answered `fail` (42_pixel_streamer.md R149). -/
theorem flushTransition_fail (ha : s.answers = .fail :: more) : flushTransition s = sentFail s.buf more s := by
  rw [flushTransition, txWrite, ha, ← raiseIoError_recordWrite ha]
  rfl

end

/-- Settles O17: the frame is the big-endian number, and the answer selects *frame-ok-blit* or *frame-fail*. -/
theorem blitFrameBeginsTheStream : Obligations.BlitFrameBeginsTheStream := by
  intro s more hwf hframe hc
  have hbytes : s.frameBytes = bytesOfNumber (frameNumber 0xC5 s.fx s.fy s.fex s.fey) := by
    rw [State.frameBytes, encodeFrame_eq_bytesOfNumber, hc]
    rfl
  intro i frame
  have hexec : exec i s = .next (frameTransition s) := by
    rw [exec_latched_displayBitmap hwf (by simp [hframe]) hc, advance_frame hframe]
  refine ⟨fun ha => ?_, fun ha => ?_⟩
  · rw [hexec, frameTransition_ok_blit ha hc, hbytes]
    rfl
  · rw [hexec, frameTransition_fail ha, hbytes]

/-- Settles O20: the answer and the cursor select *flush-ok-more*, *flush-ok-end* or *flush-fail*. -/
theorem chunkIsFlushed : Obligations.ChunkIsFlushed := by
  intro s more hwf hflush i goesOn settles
  have hboth {t : State} (ht : flushTransition s = t) :
      (s.cmd = .displayBitmap → exec i s = .next t) ∧ (s.rst = false → step s = .next t) :=
    (step_and_exec_of_advance hwf (by simp [hflush]) (by rw [advance_flush hflush, ht])).symm
  exact ⟨fun ha hend => hboth (flushTransition_ok_more ha hend), fun ha hend => hboth (flushTransition_ok_end ha hend),
    fun ha => hboth (flushTransition_fail ha)⟩

/-- Settles O21: *settle-done* reports OK. -/
theorem settleReportsOk : Obligations.SettleReportsOk :=
  fun _ hwf hsettle => step_and_exec_of_advance hwf (by simp [hsettle]) (advance_settle hsettle)

theorem exec_pixel16 (r : BitVec 5) (g : BitVec 6) (b : BitVec 5) (s : State) :
    exec (.pixel16 r g b) s = execPixel16 r g b s := rfl

/-- In STREAM a data word is appended (42_pixel_streamer.md R146). -/
theorem exec_pixel16_stream {s : State} (hwf : s.cfg.wf = true) (hstream : s.phase = .stream) (r : BitVec 5)
    (g : BitVec 6) (b : BitVec 5) : exec (.pixel16 r g b) s = .next (appendWord (wordOfLanes r g b) s) := by
  rw [exec_pixel16, execPixel16, if_pos hwf, if_pos hstream]

/-- Settles O22: a command that the latches do not hold, and a data word outside STREAM, select no transition. -/
theorem nothingElseIsTaken : Obligations.NothingElseIsTaken := by
  intro i s hwf
  refine ⟨fun hi hbusy hne => ?_, fun hi hp => ?_⟩
  · rw [exec_command i hi, runCommand, if_pos hwf, if_neg hbusy, if_neg hne]
  · cases i with
    | pixel16 r g b => rw [exec_pixel16, execPixel16, if_pos hwf, if_neg hp]
    | _ => cases hi

/-- Settles O18, by what `appendWord` does to each field. -/
theorem dataWordIsAppended : Obligations.DataWordIsAppended := by
  intro s r g b hwf hstream
  refine ⟨appendWord (wordOfLanes r g b) s, exec_pixel16_stream hwf hstream r g b, appendWord_buf _ s, appendWord_fill _ s,
    fun hcol => ?_, fun hcol => ?_, ?_, ?_, ?_⟩
  · rw [appendWord_col, appendWord_row, State.nextCol, State.nextRow, if_pos hcol, if_pos hcol]
    exact ⟨rfl, rfl⟩
  · rw [appendWord_col, appendWord_row, State.nextCol, State.nextRow, if_neg hcol, if_neg hcol]
    exact ⟨rfl, rfl⟩
  · simp [hstream, or_iff_not_imp_left]
  · simp [hstream]
  · rw [appendWord_eq]
    rfl

/-- The word of a pixel is the data word of its truncated channels (40_color_converter.md R115). -/
theorem exec_pixel16_of_pixel {s : State} (hwf : s.cfg.wf = true) (hstream : s.phase = .stream) (p : Pixel) :
    exec (.pixel16 (p.r.extractLsb' 3 5) (p.g.extractLsb' 2 6) (p.b.extractLsb' 3 5)) s
      = .next (appendWord (pixelWord p) s) := by
  rw [exec_pixel16_stream hwf hstream, pixelWord, toRGB565_eq_wordOfLanes]

/-- Settles O19: in STREAM the latched DisplayBitmap and the step are both the block's own transition, which reads the
element under the cursor. -/
theorem pixelIsReadConvertedAndAppended : Obligations.PixelIsReadConvertedAndAppended := by
  intro s hwf hstream
  have hbusy : s.phase ≠ .idle := by simp [hstream]
  refine ⟨fun p hm => ?_, fun hm => step_and_exec_of_advance hwf hbusy (advance_stream_none hstream hm)⟩
  rw [exec_pixel16_of_pixel hwf hstream p]
  exact step_and_exec_of_advance hwf hbusy (advance_stream_some hstream hm)

end Sys2Proof.Machine
end

section
/-! SUPPORT. What one transition writes, and the phase it ends in (42_pixel_streamer.md R142 to R151, R159). -/

namespace Sys2Proof.Machine

/-- A transition without a write, as far as the transport is concerned (10_state.md R31, R32). -/
def WritesNothing (s t : State) : Prop :=
  t.hist = s.hist ∧ t.wire = s.wire ∧ t.answers = s.answers ∧ t.draws = s.draws

/-- One answered write, as far as HIST and the answers are concerned. -/
def WritesOne (s t : State) (bytes : List Byte) : Prop :=
  ∃ a, t.hist = s.hist ++ [⟨bytes, a⟩] ∧ s.answers = a :: t.answers

theorem writesOne_of_answer {s t : State} {a : Answer} {more : List Answer} {b : List Byte} (ha : s.answers = a :: more)
    (hhist : t.hist = s.hist ++ [⟨b, a⟩]) (hanswers : t.answers = s.answers.tail) : WritesOne s t b :=
  ⟨a, hhist, by rw [hanswers, ha, List.tail_cons]⟩

/-- Without reset only the transitions out of FRAME and FLUSH write: the frame, and the whole of BUF. -/
theorem StepTo.writes {s t : State} (h : StepTo s t) (hrst : s.rst = false) :
    WritesNothing s t ∨ (s.phase = .frame ∧ WritesOne s t s.frameBytes) ∨ (s.phase = .flush ∧ WritesOne s t s.buf) := by
  cases h with
  | reset hr => simp [hrst] at hr
  | accept => exact .inl (by simp [WritesNothing, Machine.accept])
  | pixel => exact .inl (by simp [WritesNothing])
  | frameOkControl _ hp ha | frameOkBlit _ hp ha | frameFail _ hp ha =>
    exact .inr (.inl ⟨hp, writesOne_of_answer ha rfl rfl⟩)
  | flushOkMore _ hp ha | flushOkEnd _ hp ha | flushFail _ hp ha =>
    exact .inr (.inr ⟨hp, writesOne_of_answer ha rfl rfl⟩)
  | _ => exact .inl ⟨rfl, rfl, rfl, rfl⟩

/-- Settles O38: `StepTo.writes` with the write named. -/
theorem stepIssuesAtMostOneWrite : Obligations.StepIssuesAtMostOneWrite := by
  intro s t hstep hrst
  obtain ⟨-, hcase⟩ := step_cases hstep
  obtain hnone | ⟨hframe, a, hhist, ha⟩ | ⟨hflush, a, hhist, ha⟩ := hcase.writes hrst
  · exact .inl hnone
  · exact .inr ⟨s.frameBytes, a, hhist, ha, .inl ⟨hframe, rfl⟩⟩
  · exact .inr ⟨s.buf, a, hhist, ha, .inr ⟨hflush, rfl⟩⟩

/-- *pixel* stays in STREAM or goes to FLUSH (42_pixel_streamer.md R146). -/
theorem appendWord_phase_of_stream {s : State} (hstream : s.phase = .stream) (v : PixelWord) :
    (appendWord v s).phase = .stream ∨ (appendWord v s).phase = .flush := by
  rw [appendWord_phase, hstream]
  split_ifs
  · exact .inr rfl
  · exact .inl rfl

/-- Settles O40: each transition begins in one phase, to which one clause applies, and names the phase it ends in. -/
theorem phasesFollowTheTransitions : Obligations.PhasesFollowTheTransitions := by
  intro s t hstep hrst
  obtain ⟨-, hcase⟩ := step_cases hstep
  cases hcase with
  | reset hr => simp [hrst] at hr
  | rest _ hp | unknown _ hp | reject _ hp | accept _ hp => simp [hp, reject, raiseInvalidArgument, accept]
  | frameWait _ hp ha => simp [hp, ha]
  | frameOkControl _ hp => simp [hp, frameOkControl]
  | frameOkBlit _ hp _ hc => simp [hp, hc, frameOkBlit]
  | frameFail _ hp => simp [hp, frameFail, raiseIoError]
  | pixel _ hp =>
    exact ⟨by simp [hp], by simp [hp], fun _ => appendWord_phase_of_stream hp _, by simp [hp], by simp [hp]⟩
  | flushWait _ hp ha => simp [hp, ha]
  | flushOkMore _ hp ha he => simp [hp, ha, flushOkMore, (s.atEnd_eq_false_iff).1 he]
  | flushOkEnd _ hp ha he => simp [hp, ha, flushOkEnd, (s.atEnd_iff).1 he]
  | flushFail _ hp ha => simp [hp, ha, flushFail, raiseIoError]
  | settleDone _ hp => simp [hp, settleDone]

end Sys2Proof.Machine
end

section
/-! SUPPORT. The chunks of a byte sequence one by one (42_pixel_streamer.md R153). -/

namespace Sys2Proof.Machine

/-- Chunk `k` is the `c` bytes from `k × c` on, or as many as there are. -/
theorem getElem?_chunks {s b : List Byte} {c k : Nat} (h : (chunks s c)[k]? = some b) :
    k < chunkCount s.length c ∧ b = (s.drop (k * c)).take c := by
  simp only [chunks, List.getElem?_map, Option.map_eq_some_iff, List.getElem?_eq_some_iff, List.length_range,
    List.getElem_range] at h
  obtain ⟨_, ⟨hk, rfl⟩, rfl⟩ := h
  exact ⟨hk, rfl⟩

/-- A chunk, cut at both ends as R153 writes it. -/
theorem drop_take_eq_slice (s : List Byte) (k c : Nat) :
    (s.drop (k * c)).take c = (s.take (min ((k + 1) * c) s.length)).drop (k * c) := by
  rw [List.drop_take, List.take_eq_take_iff, List.length_drop, Nat.succ_mul]
  omega

/-- `n` bytes fill all chunks but the last, and do not pass the last. -/
theorem chunkCount_bounds {n c : Nat} (hn : 1 ≤ n) (hc : 1 ≤ c) :
    1 ≤ chunkCount n c ∧ (chunkCount n c - 1) * c < n ∧ n ≤ (chunkCount n c - 1) * c + c := by
  have hlow : chunkCount n c * c ≤ n + c - 1 := Nat.div_mul_le_self _ _
  have hhigh : n + c - 1 < chunkCount n c * c + c := Nat.lt_div_mul_add hc
  have hpos : 1 ≤ chunkCount n c := by
    rw [chunkCount_of_pos hn hc]
    omega
  have hsplit : (chunkCount n c - 1) * c + c = chunkCount n c * c := by
    rw [← Nat.succ_mul, Nat.succ_eq_add_one, Nat.sub_add_cancel hpos]
  omega

/-- Settles O46: the number of chunks, then each chunk as a slice, by where the last one begins. -/
theorem chunksPartitionThePayload : Obligations.ChunksPartitionThePayload := by
  intro s c hs hc
  obtain ⟨hpos, hbegin, hend⟩ := chunkCount_bounds (List.length_pos_iff.2 hs) hc
  refine ⟨chunks_length s c, fun k b hb => ?_, fun k b hk hb => ?_, fun b hb => ?_, chunks_flatten s hc⟩
  · obtain ⟨-, rfl⟩ := getElem?_chunks hb
    exact drop_take_eq_slice s k c
  · obtain ⟨-, rfl⟩ := getElem?_chunks hb
    rw [chunks_length] at hk
    have hfits : k * c + c ≤ (chunkCount s.length c - 1) * c := by
      rw [← Nat.succ_mul]
      exact Nat.mul_le_mul_right c (Nat.le_sub_of_add_le hk)
    rw [List.length_take, List.length_drop]
    omega
  · rw [List.getLast?_eq_getElem?] at hb
    obtain ⟨-, rfl⟩ := getElem?_chunks hb
    rw [chunks_length, List.length_take, List.length_drop, Nat.mul_comm c]
    omega

end Sys2Proof.Machine
end

section
/-! SUPPORT. Whole operations: the run to OK seen from the idle state, the run to the first failing write, and that one of
the two happens when every write is answered (42_pixel_streamer.md R154, R155, R157, R159; 70_reset_and_hazards.md R224). -/

namespace Sys2Proof.Machine

open Safety

/-- Settles O47: `run_operation`, with what `Sends` says of each field. -/
theorem operationSucceeds : Obligations.OperationSucceeds := by
  intro s p rest i pix more hwf hr hidle hq hd hv hlent ha
  obtain ⟨t, hrun, hphase, hresult, hsends⟩ := run_operation hwf hr hidle hq hd hv hlent ha
  obtain ⟨hhist, hresults⟩ := hsends.emits
  exact ⟨t, hrun, hphase, hresult, hresults, hhist, hsends.wire, hsends.requests,
    List.append_cancel_left (hsends.answers.symm.trans ha), hsends.cfg, hsends.draws⟩

/-! The run to the first failing write. -/

/-- In 1 to `bound` steps the block sends these writes, each answered `ok`, and then one answered `fail`, with which the
operation ends in IoError. -/
def FailsWithin (bound : Nat) (s : State) (sent : List (List Byte)) (failed : List Byte) : Prop :=
  ∃ n u, 1 ≤ n ∧ n ≤ bound ∧ Sends s u sent [] ∧ run n s = .next (raiseIoError (recordWrite failed .fail u))

theorem FailsWithin.mono {m n : Nat} {s : State} {sent : List (List Byte)} {b : List Byte} (h : FailsWithin m s sent b)
    (hmn : m ≤ n) : FailsWithin n s sent b := by
  obtain ⟨k, u, hpos, hle, hsends, hrun⟩ := h
  exact ⟨k, u, hpos, hle.trans hmn, hsends, hrun⟩

theorem FailsWithin.of_step {n : Nat} {s u : State} {ws sent : List (List Byte)} {b : List Byte}
    (hstep : step s = .next u) (hsends : Sends s u ws []) (h : FailsWithin n u sent b) :
    FailsWithin (n + 1) s (ws ++ sent) b := by
  obtain ⟨k, v, -, hle, hrest, hrun⟩ := h
  exact ⟨k + 1, v, Nat.le_add_left 1 k, Nat.succ_le_succ hle, hsends.trans hrest, by rw [run_succ hstep, hrun]⟩

theorem failsWithin_one {s : State} {b : List Byte} (hstep : step s = .next (raiseIoError (recordWrite b .fail s))) :
    FailsWithin 1 s [] b :=
  ⟨1, s, le_rfl, le_rfl, sends_refl s, run_one hstep⟩

/-- From STREAM or FLUSH: when the answer to chunk `k` of what is pending is the first `fail`, the chunks before it are sent
and it fails. Only elements in those chunks are read: element `j` stands `2 × j` bytes into the payload, of which
`2 × cursor − FILL` are written (42_pixel_streamer.md R155, R157). -/
theorem failsWithin_stream {s : State} (pix : Nat → Pixel) {more : List Answer} {k : Nat} {b : List Byte} (h : Inv s)
    (hr : s.rst = false) (hp : s.phase = .stream ∨ s.phase = .flush)
    (hlent : ∀ j < s.h.toNat * s.w.toNat, 2 * j + s.fill < 2 * s.cursorIndex + (k + 1) * s.cfg.chunkBytes →
      memRead s.pixels j = some (pix j))
    (hb : (chunks (s.pendingBytes pix) s.cfg.chunkBytes)[k]? = some b)
    (ha : s.answers = List.replicate k .ok ++ .fail :: more) (n : Nat)
    (hn : n = s.h.toNat * s.w.toNat - s.cursorIndex + (chunks (s.pendingBytes pix) s.cfg.chunkBytes).length) :
    FailsWithin n s ((chunks (s.pendingBytes pix) s.cfg.chunkBytes).take k) b := by
  induction n generalizing s k with
  | zero =>
    obtain ⟨hk, -⟩ := List.getElem?_eq_some_iff.1 hb
    omega
  | succ n ih =>
    obtain hstream | hflush := hp
    · have hlt := cursorIndex_lt h hstream
      have hopen : s.fill < (k + 1) * s.cfg.chunkBytes :=
        (h.stream_open hstream).1.trans_le (Nat.le_mul_of_pos_left _ k.succ_pos)
      have hread := hlent _ hlt (Nat.add_lt_add_left hopen _)
      have hstep := step_of_stepTo h.cfg_wf (.pixel hr hstream hread)
      have hpending := pendingBytes_appendWord h hstream pix
      have hindex := cursorIndex_appendWord h hstream (pixelWord (pix s.cursorIndex))
      have hrest := ih (k := k) (h.appendWord hstream (pixelWord (pix s.cursorIndex))) (by simpa using hr)
        (appendWord_phase_of_stream hstream _)
        (fun j hj hbefore => by
          rw [hindex, appendWord_fill, appendWord_cfg] at hbefore
          simpa using hlent j (by simpa using hj) (by omega))
        (by simpa [hpending] using hb) (by simpa using ha)
        (by simp only [hpending, hindex, appendWord_h, appendWord_w, appendWord_cfg]; omega)
      simpa [hpending] using FailsWithin.of_step hstep (sends_appendWord s _) hrest
    · rw [chunks_pendingBytes_of_flush h hflush] at hb hn ⊢
      cases k with
      | zero =>
        obtain rfl : s.buf = b := by simpa using hb
        exact (failsWithin_one (step_of_stepTo h.cfg_wf (.flushFail hr hflush ha))).mono (Nat.le_add_left 1 n)
      | succ k =>
        have hmore : s.answers = .ok :: (List.replicate k .ok ++ .fail :: more) := ha
        cases hend : s.atEnd with
        | false =>
          have hstep := step_of_stepTo h.cfg_wf (.flushOkMore hr hflush hmore hend)
          have hfill := h.fill_le
          have hrest := ih (k := k) ((h.recordWrite s.buf .ok).flushOkMore hflush hend) hr (.inl rfl)
            (fun j hj hbefore => hlent j hj (by
              have hbefore : 2 * j + 0 < 2 * s.cursorIndex + (k + 1) * s.cfg.chunkBytes := hbefore
              rw [Nat.succ_mul (k + 1)]
              omega))
            hb (congrArg List.tail hmore) (Nat.succ.inj hn)
          exact .of_step hstep { sends_recordWrite hmore s.buf with } hrest
        | true =>
          rw [cursorIndex_of_atEnd h (.inr (.inl hflush)) hend, payloadFrom_self,
            chunks_nil (Config.chunkBytes_pos h.cfg_wf)] at hb
          simp at hb

/-- The frame of an accepted operation fails (42_pixel_streamer.md R145). -/
theorem failsWithin_frame {s : State} {i : Instr} {more : List Answer} (hwf : s.cfg.wf = true) (hr : s.rst = false)
    (hi : slotOf i = .command) (ha : s.answers = .fail :: more) :
    FailsWithin 1 (accept (loadOf i) s) [] (encode s.cfg.byteOrder i) := by
  have hstep := step_of_stepTo (s := accept (loadOf i) s) (by simpa [accept] using hwf)
    (.frameFail (by simpa [accept] using hr) rfl (by simpa [accept] using ha))
  have hframe : (accept (loadOf i) s).frameBytes = encode s.cfg.byteOrder i := loadOf_frameBytes hi _ s
  rw [hframe] at hstep
  exact failsWithin_one hstep

/-- A chunk of an accepted DisplayBitmap fails, its frame and the chunks before it are sent. -/
theorem failsWithin_blit {s : State} {x y w h : Int} (pix : Nat → Pixel) {more : List Answer} {k : Nat} {b : List Byte}
    (hwf : s.cfg.wf = true) (hr : s.rst = false) (hidle : s.phase = .idle)
    (hv : valid s.cfg (.displayBitmap x y w h) = true)
    (hlent : ∀ j < w.toNat * h.toNat, 2 * j < (k + 1) * s.cfg.chunkBytes → memRead s.pixels j = some (pix j))
    (hb : (chunks (payload s.cfg.byteOrder w.toNat h.toNat pix) s.cfg.chunkBytes)[k]? = some b)
    (ha : s.answers = List.replicate (k + 1) .ok ++ .fail :: more) :
    FailsWithin (w.toNat * h.toNat + chunkCount (2 * w.toNat * h.toNat) s.cfg.chunkBytes + 1)
      (accept (loadOf (.displayBitmap x y w h)) s)
      (encode s.cfg.byteOrder (.displayBitmap x y w h)
        :: (chunks (payload s.cfg.byteOrder w.toNat h.toNat pix) s.cfg.chunkBytes).take k) b := by
  have hanswers : s.answers = .ok :: (List.replicate k .ok ++ .fail :: more) := ha
  have hcfg : (streamStart x y w h s).cfg = s.cfg := rfl
  have hfill : (streamStart x y w h s).fill = 0 := rfl
  have hchunks := streamStart_pendingBytes hwf hv pix
  have hsize := streamStart_size hwf hv
  have hrest : FailsWithin _ (streamStart x y w h s) _ b :=
    failsWithin_stream pix (k := k) (more := more) (inv_streamStart hwf hidle hv) hr (.inl rfl)
      (by
        simp only [hsize, hfill, hcfg, streamStart_cursorIndex, Nat.add_zero, Nat.mul_zero, Nat.zero_add]
        exact hlent)
      (by rw [hchunks]; exact hb) (congrArg List.tail hanswers) _ rfl
  rw [hchunks, hsize, streamStart_cursorIndex, hcfg, Nat.sub_zero, chunks_payload_length] at hrest
  exact .of_step (step_streamStart hwf hr hanswers) (sends_streamStart hanswers) hrest

/-- From acceptance on, when the answer to write `k` is the first `fail`, the writes before it are sent and it fails. -/
theorem failsWithin_accepted {s : State} {i : Instr} (pix : Nat → Pixel) {more : List Answer} {k : Nat} {b : List Byte}
    (hwf : s.cfg.wf = true) (hr : s.rst = false) (hidle : s.phase = .idle) (hv : valid s.cfg i = true)
    (hlent : ∀ j < payloadWords i, 2 * j < k * s.cfg.chunkBytes → memRead s.pixels j = some (pix j))
    (hb : (operationWrites s.cfg i pix)[k]? = some b) (ha : s.answers = List.replicate k .ok ++ .fail :: more) :
    ∃ n, n + 1 ≤ operationSteps s.cfg i
      ∧ FailsWithin n (accept (loadOf i) s) ((operationWrites s.cfg i pix).take k) b := by
  have hframe (hk : k = 0) : FailsWithin 1 (accept (loadOf i) s) [] (encode s.cfg.byteOrder i) :=
    failsWithin_frame hwf hr (slotOf_of_valid hv) (by simpa [hk] using ha)
  cases i with
  | displayBitmap x y w h =>
    cases k with
    | zero =>
      obtain rfl := Option.some.inj hb
      exact ⟨1, by rw [operationSteps]; omega, hframe rfl⟩
    | succ k => exact ⟨_, by rw [operationSteps]; omega, failsWithin_blit pix hwf hr hidle hv hlent hb ha⟩
  | pixel16 r g b => cases hv
  | _ =>
    simp only [operationWrites, List.getElem?_singleton, Option.ite_none_right_eq_some, Option.some.injEq] at hb
    obtain ⟨rfl, rfl⟩ := hb
    exact ⟨1, le_rfl, hframe rfl⟩

/-- A valid request of an idle block whose write `k` gets the first answer `fail`. -/
theorem run_operation_fails {s : State} {p : Presented} {rest : List Presented} {i : Instr} {pix : Nat → Pixel}
    {more : List Answer} {k : Nat} {b : List Byte} (hwf : s.cfg.wf = true) (hr : s.rst = false) (hidle : s.phase = .idle)
    (hq : s.requests = p :: rest) (hd : decodeRequest s.cfg p.request = some i) (hv : valid s.cfg i = true)
    (hlent : ∀ j < payloadWords i, 2 * j < k * s.cfg.chunkBytes → memRead p.pixels j = some (pix j))
    (hb : (operationWrites s.cfg i pix)[k]? = some b) (ha : s.answers = List.replicate k .ok ++ .fail :: more) :
    ∃ n u, 1 ≤ n ∧ n ≤ operationSteps s.cfg i ∧ run n s = .next (raiseIoError (recordWrite b .fail u))
      ∧ Sends (present p rest s) u ((operationWrites s.cfg i pix).take k) [] := by
  obtain ⟨m, hm, n, u, hpos, hle, hsends, hrun⟩ :=
    failsWithin_accepted (s := present p rest s) pix hwf hr hidle hv hlent hb ha
  refine ⟨n + 1, u, Nat.le_add_left 1 n, (Nat.succ_le_succ hle).trans hm, ?_, (sends_accept i _).trans hsends⟩
  rw [run_succ (step_of_stepTo hwf (.accept hr hidle hq hd hv)), hrun]

/-- Settles O48: `run_operation_fails`, with what `Sends` and *raise IoError* say of each field. -/
theorem operationStopsAtTheFirstFailure : Obligations.OperationStopsAtTheFirstFailure := by
  intro s p rest i pix k b more hwf hr hidle hq hd hv hlent hb ha
  obtain ⟨n, u, -, hle, hrun, hsends⟩ := run_operation_fails hwf hr hidle hq hd hv hlent hb ha
  obtain ⟨hhist, hresults⟩ := hsends.emits
  have hlength : ((operationWrites s.cfg i pix).take k).length = k :=
    List.length_take_of_le (List.getElem?_eq_some_iff.1 hb).1.le
  have hanswers : u.answers = .fail :: more := by
    have hused := hsends.answers
    rw [hlength] at hused
    exact List.append_cancel_left (hused.symm.trans ha)
  rw [raiseIoError_recordWrite hanswers] at hrun
  refine ⟨n, _, hle, hrun, rfl, rfl, ?_, ?_, ?_, rfl, rfl, hsends.requests, rfl⟩
  · rw [sentFail, hresults, List.append_nil]
    rfl
  · rw [sentFail, hhist]
    rfl
  · rw [sentFail, hsends.wire, hsends.draws]
    rfl

/-! One of the two happens when every write is answered. -/

/-- The first `n` answers are all `ok`, or one of them is the first `fail`. -/
theorem answers_cases {n : Nat} {answers : List Answer} (h : n ≤ answers.length) :
    (∃ more, answers = List.replicate n .ok ++ more)
    ∨ ∃ k < n, ∃ more, answers = List.replicate k .ok ++ .fail :: more := by
  induction n generalizing answers with
  | zero => exact .inl ⟨answers, rfl⟩
  | succ n ih =>
    obtain ⟨a, later, rfl⟩ := List.exists_cons_of_length_pos (Nat.zero_lt_of_lt h)
    cases a with
    | fail => exact .inr ⟨0, n.succ_pos, later, rfl⟩
    | ok =>
      obtain ⟨more, rfl⟩ | ⟨k, hk, more, rfl⟩ := ih (Nat.le_of_succ_le_succ h)
      · exact .inl ⟨more, rfl⟩
      · exact .inr ⟨k + 1, Nat.succ_lt_succ hk, more, rfl⟩

/-- A valid operation takes at least its acceptance. -/
theorem operationSteps_pos {c : Config} {i : Instr} (hv : valid c i = true) : 1 ≤ operationSteps c i := by
  cases i with
  | displayBitmap x y w h => rw [operationSteps]; omega
  | pixel16 r g b => cases hv
  | _ => exact Nat.le_succ 1

/-- Settles O49: all answers used are `ok` and the operation succeeds (O47), or one is the first `fail` and it stops there
(O48). -/
theorem operationTerminates : Obligations.OperationTerminates := by
  intro s p rest i pix hwf hr hidle hq hd hv hlent hanswered
  obtain ⟨more, ha⟩ | ⟨k, hk, more, ha⟩ := answers_cases hanswered
  · obtain ⟨t, hrun, hphase, -, hsends⟩ := run_operation hwf hr hidle hq hd hv hlent ha
    obtain ⟨-, hresults⟩ := hsends.emits
    exact ⟨_, t, .ok, operationSteps_pos hv, le_rfl, hrun, hphase, hresults, .inl rfl⟩
  · obtain ⟨n, u, hpos, hle, hrun, hsends⟩ :=
      run_operation_fails hwf hr hidle hq hd hv (fun j hj _ => hlent j hj) (List.getElem?_eq_getElem hk) ha
    obtain ⟨-, hresults⟩ := hsends.emits
    refine ⟨n, _, .ioError, hpos, hle, hrun, rfl, ?_, .inr rfl⟩
    show u.results ++ [.ioError] = s.results ++ [.ioError]
    rw [hresults, List.append_nil]
    rfl

end Sys2Proof.Machine
end

section
/-! SUPPORT. The display commands one transition at a time (43_display_commands.md R160 to R167): *accept* and *reject* in
IDLE, and in FRAME the one write of a command that is no DisplayBitmap (42_pixel_streamer.md R142, R143, R145, R151). -/

namespace Sys2Proof.Machine

open Safety

/-! In IDLE (42_pixel_streamer.md R142, R151). -/

/-- In IDLE *reject* writes RESULT and leaves the phase where it is (60_exceptions.md R188). -/
theorem reject_of_idle {s : State} (hidle : s.phase = .idle) : reject s = reportInvalid s := by
  rw [reject, raiseInvalidArgument, complete, reportInvalid, ← hidle]

theorem exec_idle_valid {i : Instr} {s : State} (hwf : s.cfg.wf = true) (hidle : s.phase = .idle)
    (hv : valid s.cfg i = true) : exec i s = .next (accept (loadOf i) s) := by
  rw [exec_idle i (slotOf_of_valid hv) s hwf hidle, if_pos hv]

theorem exec_idle_invalid {i : Instr} {s : State} (hi : slotOf i = .command) (hwf : s.cfg.wf = true)
    (hidle : s.phase = .idle) (hv : ¬ valid s.cfg i = true) : exec i s = .next (reportInvalid s) := by
  rw [exec_idle i hi s hwf hidle, if_neg hv, reject_of_idle hidle]

/-- Settles O14: the level's range is the validity condition, and a level in it fits the x latch. -/
theorem brightnessIsAcceptedInRange : Obligations.BrightnessIsAcceptedInRange := by
  intro s level hwf hidle
  rw [← valid_setBrightness_iff s.cfg level]
  refine ⟨fun hv => ?_, exec_idle_invalid rfl hwf hidle⟩
  obtain ⟨hlo, hhi⟩ := (valid_setBrightness_iff _ level).1 hv
  exact ⟨BitVec.ofInt 10 level, toNat_ofInt_of_fits hlo (by omega), exec_idle_valid hwf hidle hv⟩

/-- Settles O16: (a) to (f) are the validity condition; a rectangle inside a display of at most 1024 × 1024 fits the
latches. -/
theorem blitIsAcceptedInsideTheDisplay : Obligations.BlitIsAcceptedInsideTheDisplay := by
  intro s x y w h hwf hidle
  rw [← valid_displayBitmap_iff s.cfg x y w h]
  refine ⟨fun hv => ?_, exec_idle_invalid rfl hwf hidle⟩
  obtain ⟨hw, hh, hx, hy, hex, hey⟩ := (valid_displayBitmap_iff _ x y w h).1 hv
  obtain ⟨-, hdw, -, hdh, -⟩ := s.cfg.wf_iff.1 hwf
  exact ⟨BitVec.ofInt 10 x, BitVec.ofInt 10 y, BitVec.ofInt 10 (x + w - 1), BitVec.ofInt 10 (y + h - 1),
    BitVec.ofInt 11 w, BitVec.ofInt 11 h,
    toNat_ofInt_of_fits hx (by omega), toNat_ofInt_of_fits hy (by omega),
    toNat_ofInt_of_fits (by omega) (by omega), toNat_ofInt_of_fits (by omega) (by omega),
    toNat_ofInt_of_fits hw.le (by omega), toNat_ofInt_of_fits hh.le (by omega), exec_idle_valid hwf hidle hv⟩

/-- Settles O11: each control command is valid, and acceptance loads the zero rectangle. -/
theorem controlCommandsAreAccepted : Obligations.ControlCommandsAreAccepted :=
  fun _ hwf hidle => ⟨exec_idle_valid hwf hidle rfl, exec_idle_valid hwf hidle rfl, exec_idle_valid hwf hidle rfl,
    exec_idle_valid hwf hidle rfl⟩

theorem opcode_mem (c : Command) : opcode c ∈ ([101, 102, 108, 109, 110, 197] : List Byte) := by
  cases c <;> simp [opcode]

/-- A byte that is none of the six opcodes selects no operation (43_display_commands.md R167). -/
theorem decodeRequest_of_unknown (c : Config) {q : Request} (hq : q.cmd ∉ [101, 102, 108, 109, 110, 197]) :
    decodeRequest c q = none := by
  have hnone : commandOf q.cmd = none :=
    Option.eq_none_iff_forall_ne_some.2 fun k hk => hq (commandOf_eq_some.1 hk ▸ opcode_mem k)
  rw [decodeRequest, hnone]

/-- Settles O26: no operation is selected, and the idle block rejects. -/
theorem unknownCommandIsRejected : Obligations.UnknownCommandIsRejected := by
  intro s p rest hwf hr hidle hrequests hcmd
  have hpresent : (present p rest s).phase = .idle := hidle
  rw [step_unknown s hwf hr hidle hrequests (decodeRequest_of_unknown s.cfg hcmd), reject_of_idle hpresent]
  rfl

/-! In FRAME (42_pixel_streamer.md R143, R145). -/

/-- The frame of any command but DisplayBitmap: only the x field is in use (30_encoding.md R86, R87). -/
theorem frameBytes_of_x_alone {s : State} (hfy : s.fy = 0) (hfex : s.fex = 0) (hfey : s.fey = 0) :
    s.frameBytes =
      [BitVec.ofNat 8 (s.fx.toNat / 4), BitVec.ofNat 8 (s.fx.toNat % 4 * 64), 0, 0, 0, opcode s.cmd] := by
  simp [State.frameBytes, encodeFrame, frameFormula_eq, hfy, hfex, hfey]

/-- The frame of the zero rectangle (30_encoding.md R86). -/
theorem frameBytes_of_zero {s : State} (hfx : s.fx = 0) (hfy : s.fy = 0) (hfex : s.fex = 0) (hfey : s.fey = 0) :
    s.frameBytes = [0, 0, 0, 0, 0, opcode s.cmd] := by
  rw [frameBytes_of_x_alone hfy hfex hfey, hfx]
  rfl

section
variable {s : State} {more : List Answer} {i : Instr}

/-- The frame of a command other than DisplayBitmap, answered `ok` (42_pixel_streamer.md R143). -/
theorem frameTransition_ok_control (ha : s.answers = .ok :: more) (hc : s.cmd ≠ .displayBitmap) :
    frameTransition s = reportOk (sentOk s.frameBytes more s) := by
  rw [frameTransition, txWrite, ha, if_neg hc, recordWrite_ok ha]
  rfl

/-- In FRAME the operation that the latches hold takes the transition out of FRAME. -/
theorem exec_frame (hwf : s.cfg.wf = true) (hframe : s.phase = .frame) (hi : s.latched = i) :
    exec i s = .next (frameTransition s) := by
  rw [← hi, exec_latched s hwf (by simp [hframe]), advance_frame hframe]

theorem exec_frame_ok_control (hwf : s.cfg.wf = true) (hframe : s.phase = .frame) (hi : s.latched = i)
    (hc : s.cmd ≠ .displayBitmap) (ha : s.answers = .ok :: more) :
    exec i s = .next (reportOk (sentOk s.frameBytes more s)) := by
  rw [exec_frame hwf hframe hi, frameTransition_ok_control ha hc]

theorem exec_frame_fail (hwf : s.cfg.wf = true) (hframe : s.phase = .frame) (hi : s.latched = i)
    (ha : s.answers = .fail :: more) : exec i s = .next (sentFail s.frameBytes more s) := by
  rw [exec_frame hwf hframe hi, frameTransition_fail ha]

end

/-- Settles O15: the frame has the level in x alone, and the answer selects *frame-ok-control* or *frame-fail*. -/
theorem brightnessSendsItsLevel : Obligations.BrightnessSendsItsLevel := by
  intro s level more hwf hframe hc _ hfx hfy hfex hfey bytes
  have hlatched : s.latched = .setBrightness level := by rw [State.latched, hc, hfx]
  have hbytes : s.frameBytes = bytes := by
    rw [frameBytes_of_x_alone hfy hfex hfey, hfx, hc]
    rfl
  rw [← hbytes]
  exact ⟨exec_frame_ok_control hwf hframe hlatched (by simp [hc]), exec_frame_fail hwf hframe hlatched⟩

/-- Settles O12: the frame of the zero rectangle, answered `ok`. -/
theorem controlCommandsSendTheirFrame : Obligations.ControlCommandsSendTheirFrame := by
  intro s more hwf hframe ha hfx hfy hfex hfey
  have sends {c : Command} {i : Instr} (hc : s.cmd = c) (hne : c ≠ .displayBitmap) (hi : s.latched = i) :
      exec i s = .next (reportOk (sentOk [0, 0, 0, 0, 0, opcode c] more s)) := by
    rw [exec_frame_ok_control hwf hframe hi (hc ▸ hne) ha, frameBytes_of_zero hfx hfy hfex hfey, hc]
  exact ⟨fun hc => sends hc nofun (by rw [State.latched, hc]), fun hc => sends hc nofun (by rw [State.latched, hc]),
    fun hc => sends hc nofun (by rw [State.latched, hc]), fun hc => sends hc nofun (by rw [State.latched, hc])⟩

/-- Settles O13: the frame of the zero rectangle, answered `fail`. -/
theorem controlCommandsFailWithIoError : Obligations.ControlCommandsFailWithIoError := by
  intro s more hwf hframe ha hfx hfy hfex hfey
  have fails {c : Command} {i : Instr} (hc : s.cmd = c) (hi : s.latched = i) :
      exec i s = .next (sentFail [0, 0, 0, 0, 0, opcode c] more s) := by
    rw [exec_frame_fail hwf hframe hi ha, frameBytes_of_zero hfx hfy hfex hfey, hc]
  exact ⟨fun hc => fails hc (by rw [State.latched, hc]), fun hc => fails hc (by rw [State.latched, hc]),
    fun hc => fails hc (by rw [State.latched, hc]), fun hc => fails hc (by rw [State.latched, hc])⟩

end Sys2Proof.Machine
end

section
/-! SUPPORT. When a result is reported (60_exceptions.md R180, R182, R186, 10_state.md R28). -/

namespace Sys2Proof.Machine

/-- A transition that reports no result; then no write failed in it. -/
def ReportsNothing (s t : State) : Prop :=
  t.results = s.results ∧ t.result = s.result ∧ ∀ v ∈ t.hist.drop s.hist.length, v.outcome = .ok

/-- The moment at which the rules let the transition from `s` to `t` report a result. -/
def ReportMoment (s t : State) : Result → Prop
  | .invalidArgument => s.phase = .idle ∧ t.hist = s.hist
  | .ioError => (s.phase = .frame ∨ s.phase = .flush) ∧ ∃ b, t.hist = s.hist ++ [⟨b, .fail⟩]
  | .ok => (s.phase = .settle ∧ t.hist = s.hist)
      ∨ (s.phase = .frame ∧ s.cmd ≠ .displayBitmap ∧ t.hist = s.hist ++ [⟨s.frameBytes, .ok⟩])

/-- A transition that ends the operation with one result, at a moment the rules name. -/
def ReportsOne (s t : State) : Prop :=
  t.phase = .idle ∧ t.results = s.results ++ [t.result] ∧ ReportMoment s t t.result

theorem reportsNothing_of_hist_eq {s t : State} (hresults : t.results = s.results) (hresult : t.result = s.result)
    (hhist : t.hist = s.hist) : ReportsNothing s t :=
  ⟨hresults, hresult, by simp [hhist]⟩

theorem reportsNothing_of_write_ok {s t : State} {b : List Byte} (hresults : t.results = s.results)
    (hresult : t.result = s.result) (hhist : t.hist = s.hist ++ [⟨b, .ok⟩]) : ReportsNothing s t :=
  ⟨hresults, hresult, by simp [hhist]⟩

/-- Completion reports its one result; the moment is that of the state completed. -/
theorem reportsOne_complete {s u : State} {r : Result} (hresults : u.results = s.results) (hmoment : ReportMoment s u r) :
    ReportsOne s (complete r u) :=
  ⟨rfl, by rw [complete_results, complete_result, hresults], by cases r <;> exact hmoment⟩

/-- Without reset only *reject*, *frame-ok-control*, *settle-done* and the two failures report a result
(42_pixel_streamer.md R143, R145, R149 to R151). -/
theorem StepTo.reports {s t : State} (h : StepTo s t) (hrst : s.rst = false) : ReportsNothing s t ∨ ReportsOne s t := by
  cases h with
  | reset hr => simp [hrst] at hr
  | rest | frameWait | flushWait => exact .inl (reportsNothing_of_hist_eq rfl rfl rfl)
  | accept => refine .inl (reportsNothing_of_hist_eq ?_ ?_ ?_) <;> simp [Machine.accept]
  | pixel => exact .inl (reportsNothing_of_hist_eq (by simp) (by simp) (by simp))
  | frameOkBlit | flushOkMore | flushOkEnd => exact .inl (reportsNothing_of_write_ok rfl rfl rfl)
  | unknown _ hp | reject _ hp => exact .inr (reportsOne_complete rfl ⟨hp, rfl⟩)
  | frameOkControl _ hp _ hc => exact .inr (reportsOne_complete rfl (.inr ⟨hp, hc, rfl⟩))
  | frameFail _ hp => exact .inr (reportsOne_complete rfl ⟨.inl hp, _, rfl⟩)
  | flushFail _ hp => exact .inr (reportsOne_complete rfl ⟨.inr hp, _, rfl⟩)
  | settleDone _ hp => exact .inr (reportsOne_complete rfl (.inl ⟨hp, rfl⟩))

/-- Settles O39: `StepTo.reports`, with the moment of each result written out. -/
theorem resultsAriseWhereTheRulesSay : Obligations.ResultsAriseWhereTheRulesSay := by
  intro s t hstep hrst
  obtain ⟨-, hcase⟩ := step_cases hstep
  obtain hnone | ⟨hidle, hresults, hmoment⟩ := hcase.reports hrst
  · exact .inl hnone
  · have moment {r : Result} (hr : t.result = r) : ReportMoment s t r := hr ▸ hmoment
    exact .inr ⟨hidle, hresults, moment, moment, moment⟩

end Sys2Proof.Machine
end

section
/-! SUPPORT. Block reset (70_reset_and_hazards.md R210, R212), waiting for the transport (R224), and where a step can stop
(R213 d). -/

namespace Sys2Proof.Machine

open Safety

/-! Block reset and the write in progress. -/

theorem writeInProgress_frame {s : State} (hp : s.phase = .frame) : s.writeInProgress = some s.frameBytes := by
  rw [State.writeInProgress, hp]

theorem writeInProgress_flush {s : State} (hp : s.phase = .flush) : s.writeInProgress = some s.buf := by
  rw [State.writeInProgress, hp]

theorem writeInProgress_eq_none {s : State} (hp : s.phase = .idle ∨ s.phase = .stream ∨ s.phase = .settle) :
    s.writeInProgress = none := by
  obtain hp | hp | hp := hp <;> rw [State.writeInProgress, hp]

/-- Block reset adds to the wire the first bytes of the write in progress, however many (20_memory.md R61); without one,
nothing. -/
theorem blockReset_wire_prefix (s : State) :
    ∃ part, (blockReset s).wire = s.wire ++ part ∧ part <+: s.writeInProgress.getD [] :=
  ⟨_, blockReset_wire s, List.take_prefix ..⟩

/-- Settles O30: the step is `blockReset`, and what the phase had in progress bounds what reaches the wire. -/
theorem blockResetAbandonsTheOperation : Obligations.BlockResetAbandonsTheOperation := by
  intro s hwf hr
  obtain ⟨part, hwire, hpart⟩ := blockReset_wire_prefix s
  refine ⟨blockReset s, part, step_of_stepTo hwf (.reset hr), rfl, rfl, rfl, rfl, rfl, rfl, rfl, rfl, rfl, rfl, rfl, hwire,
    fun hframe => ?_, fun hflush => ?_, fun hnone => ?_⟩
  · rw [writeInProgress_frame hframe] at hpart
    rwa [← encodeFrame_eq_bytesOfNumber]
  · rwa [writeInProgress_flush hflush] at hpart
  · rw [writeInProgress_eq_none hnone] at hpart
    exact List.prefix_nil.1 hpart

/-! Where a step can stop. -/

/-- An idle block always goes on: it rests, or accepts or rejects the request on the port (42_pixel_streamer.md R142,
R151; 43_display_commands.md R167). -/
theorem exists_stepTo_of_idle {s : State} (hr : s.rst = false) (hp : s.phase = .idle) : ∃ t, StepTo s t := by
  cases hq : s.requests with
  | nil => exact ⟨_, .rest hr hp hq⟩
  | cons p rest =>
    cases hd : decodeRequest s.cfg p.request with
    | none => exact ⟨_, .unknown hr hp hq hd⟩
    | some i =>
      cases hv : valid s.cfg i with
      | true => exact ⟨_, .accept hr hp hq hd hv⟩
      | false => exact ⟨_, .reject hr hp hq hd hv⟩

/-- A busy block goes on in every phase, in STREAM when the element under the cursor is lent. -/
theorem exists_advance_of_supplied {s : State} (hbusy : s.phase ≠ .idle) (hlent : PixelSupplied s) :
    ∃ t, advance s = .next t := by
  cases hp : s.phase with
  | idle => exact absurd hp hbusy
  | frame => exact ⟨_, advance_frame hp⟩
  | stream =>
    obtain ⟨p, hm⟩ := Option.isSome_iff_exists.1 (hlent hp)
    exact ⟨_, advance_stream_some hp hm⟩
  | flush => exact ⟨_, advance_flush hp⟩
  | settle => exact ⟨_, advance_settle hp⟩

theorem exists_step_of_supplied {s : State} (hwf : s.cfg.wf = true) (hr : s.rst = false) (hlent : PixelSupplied s) :
    ∃ t, step s = .next t := by
  by_cases hp : s.phase = .idle
  · obtain ⟨t, ht⟩ := exists_stepTo_of_idle hr hp
    exact ⟨t, step_of_stepTo hwf ht⟩
  · rw [step_busy s hwf hr hp]
    exact exists_advance_of_supplied hp hlent

/-- The element under the cursor is missing exactly in STREAM, where its read answers none. -/
theorem not_pixelSupplied_iff {s : State} :
    ¬ PixelSupplied s ↔ s.phase = .stream ∧ memRead s.pixels s.cursorIndex = none := by
  rw [PixelSupplied, Classical.not_imp, Option.not_isSome_iff_eq_none]

/-- Settles O41: of the invariants only the well-formed configuration is needed. -/
theorem stepNeverStopsWhenPixelsAreLent : Obligations.StepNeverStopsWhenPixelsAreLent := by
  intro s hinv
  refine ⟨fun hgo => ?_, fun hstop => ?_⟩
  · cases hr : s.rst with
    | true => exact ⟨_, step_of_stepTo hinv.cfg_wf (.reset hr)⟩
    | false => exact exists_step_of_supplied hinv.cfg_wf hr (hgo.resolve_left (by simp [hr]))
  · obtain ⟨hr, hmissing⟩ := not_or.1 hstop
    obtain ⟨hstream, hnone⟩ := not_pixelSupplied_iff.1 hmissing
    have hbusy : s.phase ≠ .idle := by simp [hstream]
    rw [step_busy s hinv.cfg_wf (by simpa using hr) hbusy]
    exact advance_stream_none hstream hnone

/-! Waiting for the transport. -/

/-- Settles O27: the waits of FRAME and FLUSH. -/
theorem unansweredWriteWaits : Obligations.UnansweredWriteWaits := by
  intro s hwf hr hphase hunanswered
  obtain hframe | hflush := hphase
  · exact step_of_stepTo hwf (.frameWait hr hframe hunanswered)
  · exact step_of_stepTo hwf (.flushWait hr hflush hunanswered)

end Sys2Proof.Machine
end
